-- ==== Sys2Proof/Word.lean ====
section
/-! DEFINITION. The word types of the BX16: the bytes of a ring frame and the multi-byte values that wrap. -/

namespace Sys2Proof

/-- One byte of a ring frame (R174). -/
abbrev Byte := BitVec 8

/-- A 2-byte value of a payload (R177): tags and revisions. -/
abbrev Word16 := BitVec 16

/-- A 4-byte value of a payload (R177): timebase readings and joint serials. -/
abbrev Word32 := BitVec 32

end Sys2Proof
end

