-- ==== Sys2Proof/Syntax.lean ====
section
/-! DEFINITION. The commands of the BX16: one constructor of `Instr` for each row of
spec/opcode_table.json. A management row carries the operands its request's encoding carries (R177). -/

namespace Sys2Proof

/-- A head H0-H15. -/
abbrev HeadId := Fin 16

/-- A coolant group G0-G3. -/
abbrev GroupId := Fin 4

/-- A profile number P0-P31. -/
abbrev ProfileId := Fin 32

/-- A generator, A or B. -/
inductive GenId where
  | a
  | b
  deriving DecidableEq, Repr

/-- The polarity of a head input (R22). -/
inductive Polarity where
  | activeOn
  | activeOff
  deriving DecidableEq, Repr

/-- What every management request carries beside its command and arguments (R190): the source station
recorded with it, its tag and its authority byte. `engEn` is the level of the ENG_EN pin at the event
(DESIGN CHOICE, log 6). -/
structure ReqHead where
  source    : Byte
  tag       : Word16
  authority : Byte
  engEn     : Bool
  deriving DecidableEq, Repr

/-- One segment of a WRITE PROFILE request (R177, item 4). `other` is a segment whose kind code is none
of RAMP, SOAK and COOL (R13, check 3). -/
inductive SegArg where
  | ramp (target rate reach limit ceiling : Word16)
  | soak (target duration ceiling : Word16)
  | cool (target limit : Word16)
  | other (kind : Byte)
  deriving DecidableEq, Repr

/-- The acceptance criteria of a WRITE PROFILE request, in the order of R9. -/
structure CriteriaArg where
  minPeak    : Option Word16
  maxPeak    : Option Word16
  minFlow    : Option Word32
  maxFlow    : Option Word32
  minEnergy  : Option Word32
  maxEnergy  : Option Word32
  maxRescues : Option Byte
  fullCool   : Bool
  deriving DecidableEq, Repr

/-- The arguments of WRITE PROFILE (R11, R177). `segCount` is the count byte; R13 check 2 compares it with
the segments carried. -/
structure ProfileArg where
  profile     : Byte
  expected    : Option Word16
  flowTemp    : Word16
  maxTemp     : Word16
  weight      : Byte
  kp          : Byte
  ki          : Byte
  deficitBand : Word16
  recoverBand : Word16
  segCount    : Byte
  segments    : List SegArg
  criteria    : CriteriaArg
  deriving DecidableEq, Repr

/-- The arguments of WRITE HEAD CONFIG (R23). -/
structure HeadConfigArg where
  head         : Byte
  binding      : Byte
  priority     : Byte
  masked       : Bool
  powerLimit   : Word16
  couplingMin  : Word16
  couplingPower : Word16
  polPart      : Polarity
  polClamp     : Polarity
  polCoil      : Polarity
  deriving DecidableEq, Repr

/-- The arguments of WRITE PART CONFIG: every field of R194, in its order (R195). -/
structure PartConfigArg where
  slotPeriod       : Word16
  concentrator     : Byte
  ioStation        : Byte
  stationA         : Byte
  stationB         : Byte
  noticeStation    : Byte
  ratingA          : Word16
  ratingB          : Word16
  vt               : Word16
  vf               : Word16
  wakeTimeout      : Word16
  idleDelay        : Word16
  interlockTimeout : Word16
  rescueLimit      : Word16
  resumeWindow     : Word16
  modeA            : Byte
  modeB            : Byte
  deriving DecidableEq, Repr

/-- The commands of the part: the rows of spec/opcode_table.json, in its order. -/
inductive Instr where
  /-- Supply application, or RST_N taken low (`rstLow`); `straps` are the levels of STN5-STN0. -/
  | powerOnReset (straps : BitVec 6) (rstLow : Bool)
  | softReset
  /-- A frame received whole at the upstream port: its bytes from destination to check. -/
  | frameArrival (bytes : List Byte) (engEn : Bool)
  | portSendEnd (engEn : Bool)
  | slotExpiry
  | segmentTimerExpiry (h : HeadId)
  | sampleTimerExpiry (h : HeadId)
  | resumeWindowExpiry (h : HeadId)
  | rescueLimitExpiry (g : GenId)
  | wakeTimerExpiry (g : GenId)
  | statusTimerExpiry (g : GenId)
  | idleTimerExpiry (g : GenId)
  | interlockFrameTimerExpiry
  | readStatus (r : ReqHead) (page : Byte)
  | readConfig (r : ReqHead)
  | readCounters (r : ReqHead) (page : Byte)
  | readProfile (r : ReqHead) (profile : Byte)
  | readPhases (r : ReqHead) (gen table : Byte)
  | readHead (r : ReqHead) (head : Byte)
  | readFaults (r : ReqHead) (head : Byte)
  | readResults (r : ReqHead) (count : Byte)
  | peekResults (r : ReqHead) (count : Byte)
  | start (r : ReqHead) (head profile : Byte) (serial : Word32)
  | abort (r : ReqHead) (head : Byte)
  | suspendHead (r : ReqHead) (head : Byte)
  | resumeHead (r : ReqHead) (head seg : Byte) (cont : Bool)
  | clearHead (r : ReqHead) (head : Byte)
  | clearFaults (r : ReqHead) (head : Byte) (kinds : List Byte)
  | clearCoolantLatch (r : ReqHead) (group : Byte)
  | clearGenerator (r : ReqHead) (gen : Byte)
  | ackColdStart (r : ReqHead)
  | clearCounters (r : ReqHead)
  | writeProfile (r : ReqHead) (w : ProfileArg)
  | eraseProfile (r : ReqHead) (profile : Byte) (expected : Option Word16)
  | lockProfile (r : ReqHead) (profile : Byte) (expected : Option Word16)
  | unlockProfile (r : ReqHead) (profile : Byte) (expected : Option Word16)
  | writePhases (r : ReqHead) (gen start : Byte) (entries : List Byte) (length : Byte)
  | loadPhases (r : ReqHead) (gen : Byte)
  | writeHeadConfig (r : ReqHead) (w : HeadConfigArg)
  | writeExclusions (r : ReqHead) (pairs : List (Byte × Byte))
  | writePartConfig (r : ReqHead) (w : PartConfigArg)
  /-- Mask code and severity code of each kind, in the order of R139 (DEDUCED, log 13). -/
  | writeFaultPolicy (r : ReqHead) (entries : List (Byte × Byte))
  | disableHead (r : ReqHead) (head : Byte)
  | enableHead (r : ReqHead) (head : Byte)
  | resetPart (r : ReqHead)
  | unknownCommand (r : ReqHead) (code : Byte) (args : List Byte)
  | timebaseTick
  /-- RST_N returns high; `frameUnderWay` says whether an upstream frame is under way at that moment. -/
  | rstNRelease (frameUnderWay : Bool)
  deriving DecidableEq, Repr

end Sys2Proof
end

