-- ==== Sys2Proof/Decode.lean ====
section
/-! DEFINITION. The decoder of the opcode table's bits. Every row of spec/opcode_table.json has an empty
"fields" and no fixed bits, so no word spells a command (DESIGN CHOICE, log 27). The bytes of a ring frame
are read in
Machine/Ring.lean and Machine/Requests.lean. -/

namespace Sys2Proof

/-- The command a word of the table's bits spells: none, for the table gives no row any bits. -/
def decodeTableWord (_nbits _w : Nat) : Option Instr := none

end Sys2Proof
end

