-- ==== Sys2Proof/Config.lean ====
section
/-! DEFINITION. What the spec leaves open about bytes the part is sent: a free value with no body, so that
nothing can be proved of it. -/

namespace Sys2Proof

/-- The one-byte arguments of a request that R177 gives two codes and that no check of the command's own
rule reads: a presence byte, a flag, a rescue mask, a polarity, a policy mask. -/
inductive OpenField where
  | presence
  | continueFlag
  | rescueMask
  | polarity
  | policyMask
  deriving DecidableEq, Repr

/-- What a byte of 2-255 in such a field is taken as: one of the two values (`some false` is what byte 0
means, `some true` what byte 1 means), or arguments the command's encoding does not give (`none`). The
spec does not say. DESIGN CHOICE: a free value (log 12). -/
opaque Config.openCode : OpenField → Byte → Option Bool

end Sys2Proof
end

