-- ==== Sys2Proof/Machine/State.lean ====
section
/-! DEFINITION. The state of the BX16 as plain data, and its value after a power-on reset. Each structure is
one block's state; each field's docstring names the rule of spec/ that gives it. -/

namespace Sys2Proof.Machine

/-! ### Named values, each in the order of the list that gives its codes (R177) -/

/-- The head states (R21). -/
inductive HeadState where
  | idle | waitGen | running | suspended | faulted | disabled
  deriving DecidableEq, Repr

/-- The outcomes of a joint (R21, R164). -/
inductive JointOutcome where
  | none | accept | reject | aborted | fault
  deriving DecidableEq, Repr

/-- The nine fault kinds, in the order of R139. -/
inductive FaultKind where
  | sensorLost | overtemp | segmentOvertime | soakDeficit | couplingLow
  | interlockLost | coolantLost | generatorFault | suspendExpired
  deriving DecidableEq, Repr

/-- The severity of a fault kind (R140). -/
inductive Severity where
  | suspend | abort
  deriving DecidableEq, Repr

/-- The action of a fault (R143, R145). -/
inductive FaultAction where
  | abort | suspend | escalated | recorded
  deriving DecidableEq, Repr

/-- The eleven deviation kinds, in the order of R155. -/
inductive Deviation where
  | sequenceGap | duplicate | outOfOrder | weak | rescueGranted | rescueMasked
  | borrowed | derated | earlyRelease | lateEnergy | energyMismatch
  deriving DecidableEq, Repr

/-- The nine port counters, in the order of R188. -/
inductive PortCounter where
  | crcError | malformed | returned | foreignSource | unknownKind
  | requestOverflow | forwardOverrun | driveReplaced | noticeDropped
  deriving DecidableEq, Repr

/-- The generator states (R110). -/
inductive GenState where
  | off | standby | waking | ready | faulted
  deriving DecidableEq, Repr

/-- The states a GENSTAT reports (R178). -/
inductive Reported where
  | standby | waking | ready | fault
  deriving DecidableEq, Repr

/-- A generator's fault cause (R110). -/
inductive GenCause where
  | none | wakeTimeout | statusLost | reportedFault | unexpectedState
  deriving DecidableEq, Repr

/-- A sample's quality (R50). -/
inductive Quality where
  | good | weak | none
  deriving DecidableEq, Repr

/-- A generator's rescue mode (R96). -/
inductive RescueMode where
  | fixed | rotating
  deriving DecidableEq, Repr

/-- The eight acceptance criteria, in the order of R165. -/
inductive Criterion where
  | minPeak | maxPeak | minFlow | maxFlow | minEnergy | maxEnergy | maxRescues | fullCool
  deriving DecidableEq, Repr

/-- The status of a reply (R179). -/
inductive Status where
  | ok | busy | denied | badArgument | badState | badTable | locked | inUse
  | stale | notReady | interlock | full | unknownCommand
  deriving DecidableEq, Repr

/-! ### The Profile Store -/

/-- One segment of a stored profile (R6, R7, R8). -/
inductive Segment where
  | ramp (target rate reach limit ceiling : Nat)
  | soak (target duration ceiling : Nat)
  | cool (target limit : Nat)
  deriving DecidableEq, Repr

/-- The control parameters of a VALID record (R4). -/
structure Params where
  flowTemp    : Nat
  maxTemp     : Nat
  weight      : Nat
  kp          : Nat
  ki          : Nat
  deficitBand : Nat
  recoverBand : Nat
  deriving DecidableEq, Repr

/-- The acceptance criteria of a VALID record, each present or absent (R9). -/
structure Criteria where
  minPeak    : Option Nat
  maxPeak    : Option Nat
  minFlow    : Option Nat
  maxFlow    : Option Nat
  minEnergy  : Option Nat
  maxEnergy  : Option Nat
  maxRescues : Option Nat
  fullCool   : Bool
  deriving DecidableEq, Repr

/-- The contents of a VALID record (R2). -/
structure Recipe where
  params   : Params
  segments : List Segment
  criteria : Criteria
  deriving DecidableEq, Repr

/-- One profile record (R2, R3): EMPTY where `recipe` is `none`, else VALID. -/
structure ProfileRecord where
  recipe   : Option Recipe
  locked   : Bool
  revision : Word16
  deriving DecidableEq, Repr

/-! ### A head: Head Controller, Heat Control Unit, Fault Recorder, interlock inputs, rescue request -/

/-- Why a head was suspended (R39). -/
inductive SuspendCause where
  | manual
  | fault (kind : FaultKind)
  deriving DecidableEq, Repr

/-- A suspend record (R39). -/
structure SuspendRecord where
  cause         : SuspendCause
  segIndex      : Nat
  elapsed       : Nat
  rampOrigin    : Option Nat
  setpoint      : Nat
  filtered      : Option Nat
  integrator    : Nat
  energy        : Nat
  timeAboveFlow : Nat
  peak          : Nat
  rescueCount   : Nat
  inRescue      : Bool
  derated       : Bool
  time          : Word32
  deriving DecidableEq, Repr

/-- A head context (R21). A timer is the milliseconds it has left, or `none` where it is stopped.
`contEntry` is the model's own mark for what R29 step 4 asks: the next entry into RUNNING is the one a
continued resume makes (DEDUCED, log 11). -/
structure HeadContext where
  state         : HeadState
  serial        : Word32
  profile       : Option ProfileId
  revision      : Word16
  segIndex      : Nat
  entryOffset   : Nat
  segStart      : Word32
  rampOrigin    : Option Nat
  jointStart    : Word32
  peak          : Nat
  timeAboveFlow : Nat
  energy        : Nat
  rescueCount   : Nat
  segsDone      : Nat
  derated       : Bool
  earlyRelease  : Bool
  coolTimeout   : Bool
  resumed       : Bool
  suspendedOnce : Bool
  lastOutcome   : JointOutcome
  reservation   : Bool
  suspendRec    : Option SuspendRecord
  served        : Bool
  couplingLow   : Nat
  segTimer      : Option Nat
  sampleTimer   : Option Nat
  windowTimer   : Option Nat
  contEntry     : Bool
  deriving DecidableEq, Repr

/-- A head's configuration (R22); a `none` binding is NONE. -/
structure HeadConfig where
  binding       : Option GenId
  priority      : Nat
  masked        : Bool
  powerLimit    : Nat
  couplingMin   : Nat
  couplingPower : Nat
  polPart       : Polarity
  polClamp      : Polarity
  polCoil       : Polarity
  enabled       : Bool
  deriving DecidableEq, Repr

/-- The last accepted sample of a head (R49, R52): values as taken. -/
structure Sample where
  seq       : Byte
  temp      : Nat
  current   : Nat
  quality   : Quality
  saturated : Bool
  time      : Word32
  deriving DecidableEq, Repr

/-- A head's values in the Heat Control Unit (R49). -/
structure Hcu where
  filtered   : Option Nat
  setpoint   : Nat
  integrator : Nat
  demand     : Nat
  seqRef     : Option Byte
  lastSample : Option Sample
  prevTime   : Option Word32
  deriving DecidableEq, Repr

/-- The part of the last accepted sample a capture record holds (R143). -/
structure CapturedSample where
  seq     : Byte
  temp    : Nat
  current : Nat
  quality : Quality
  deriving DecidableEq, Repr

/-- A capture record: the fields of R143, and the peak that R57 has copied into it (DESIGN CHOICE, log 33: R143's
list has no peak). -/
structure Capture where
  kind      : FaultKind
  action    : FaultAction
  serial    : Word32
  headState : HeadState
  segIndex  : Nat
  elapsed   : Nat
  sample    : Option CapturedSample
  filtered  : Option Nat
  setpoint  : Nat
  demand    : Nat
  peak      : Nat
  time      : Word32
  deriving DecidableEq, Repr

/-- What the Fault Recorder holds for a head beside its counters (R142, R143). `status` lists the kinds
present, in the order of R139 and without repeats. -/
structure FaultRecord where
  status  : List FaultKind
  pointer : Option FaultKind
  capture : Option Capture
  deriving DecidableEq, Repr

/-- One debounced input of the Interlock Monitor (R126): raw state (`some true` is on), effective state
(`true` is SATISFIED) and debounce mark. -/
structure Input where
  raw       : Option Bool
  satisfied : Bool
  mark      : Bool
  deriving DecidableEq, Repr

/-- The three inputs of a head (R126). -/
structure HeadInputs where
  part  : Input
  clamp : Input
  coil  : Input
  deriving DecidableEq, Repr

/-- Everything the part holds for one head. `rescueReq` is the Rescue Resolver's request (R96);
`deviations` are the eleven counters in the order of R155. -/
structure Head where
  ctx        : HeadContext
  cfg        : HeadConfig
  hcu        : Hcu
  fr         : FaultRecord
  deviations : Vector Nat 11
  inputs     : HeadInputs
  rescueReq  : Bool
  deriving DecidableEq, Repr

/-! ### A generator: Generator Monitor, phase tables, rescue service -/

/-- One phase table (R75): 32 entry positions (`none` is EMPTY) and a length. -/
structure PhaseTable where
  entries : Vector (Option HeadId) 32
  length  : Nat
  deriving DecidableEq, Repr

/-- One entry of a drive history (R91). -/
structure DriveEntry where
  slot     : Byte
  head     : HeadId
  serial   : Word32
  setpoint : Nat
  deriving DecidableEq, Repr

/-- Everything the part holds for one generator: the Generator Monitor's items (R110), the Slot
Scheduler's (R75, R91) and the Rescue Resolver's (R96). -/
structure Generator where
  state         : GenState
  reported      : Option Reported
  bus           : Option Nat
  budget        : Nat
  cause         : GenCause
  wakeTimer     : Option Nat
  idleTimer     : Option Nat
  statusTimer   : Option Nat
  active        : PhaseTable
  staged        : PhaseTable
  pointer       : Option Nat
  stagedDiffers : Bool
  loadPending   : Bool
  history       : List DriveEntry
  inService     : Option HeadId
  rotation      : List HeadId
  limitTimer    : Option Nat
  deriving DecidableEq, Repr

/-- The two generators. -/
structure Generators where
  a : Generator
  b : Generator
  deriving DecidableEq, Repr

/-! ### The part-wide blocks -/

/-- A coolant group (R126). -/
structure Group where
  flow  : Input
  latch : Bool
  deriving DecidableEq, Repr

/-- The Interlock Monitor's part-wide state (R126). -/
structure Interlocks where
  groups     : Vector Group 4
  frameTimer : Option Nat
  timeouts   : Nat
  deriving DecidableEq, Repr

/-- A frame in a transmit queue or being sent: its bytes, and the reset mark of R187. -/
structure TxFrame where
  bytes     : List Byte
  resetMark : Bool
  deriving DecidableEq, Repr

/-- The Ring Port (R173, R183-R189). `skipFrame` is set while a frame that was under way at RST_N's
release has not ended (R189, DEDUCED, log 5). `counters` are the nine of R188 in order. -/
structure RingPort where
  station   : BitVec 6
  skipFrame : Bool
  drive     : List (GenId × TxFrame)
  forward   : List TxFrame
  replies   : List TxFrame
  notices   : List TxFrame
  port      : Option TxFrame
  counters  : Vector Nat 9
  deriving DecidableEq, Repr

/-- A request in the request queue (R182). -/
structure Request where
  source    : Byte
  tag       : Word16
  authority : Byte
  code      : Byte
  args      : List Byte
  deriving DecidableEq, Repr

/-- The part configuration record (R194). -/
structure PartConfig where
  slotPeriod       : Nat
  concentrator     : Nat
  ioStation        : Nat
  stationA         : Nat
  stationB         : Nat
  noticeStation    : Nat
  ratingA          : Nat
  ratingB          : Nat
  vt               : Nat
  vf               : Nat
  wakeTimeout      : Nat
  idleDelay        : Nat
  interlockTimeout : Nat
  rescueLimit      : Nat
  resumeWindow     : Nat
  modeA            : RescueMode
  modeB            : RescueMode
  deriving DecidableEq, Repr

/-- One entry of the fault policy (R140). -/
structure PolicyEntry where
  masked   : Bool
  severity : Severity
  deriving DecidableEq, Repr

/-- The Management Unit (R192, R194, R197, R200); `policy` is in the order of R139. -/
structure Management where
  requests     : List Request
  config       : PartConfig
  policy       : Vector PolicyEntry 9
  cold         : Bool
  resetPending : Bool
  deriving DecidableEq, Repr

/-- The Slot Scheduler's part-wide state (R73, R86). `period` is the slot period in force (DEDUCED, log
10). -/
structure SlotClock where
  timer      : Nat
  period     : Nat
  number     : Byte
  exclusions : List (HeadId × HeadId)
  deriving DecidableEq, Repr

/-- A result record (R162). -/
structure ResultRecord where
  serial        : Word32
  head          : HeadId
  profile       : ProfileId
  revision      : Word16
  outcome       : JointOutcome
  failed        : Option (List Criterion)
  kind          : Option FaultKind
  peak          : Nat
  timeAboveFlow : Nat
  joules        : Nat
  duration      : Word32
  segsDone      : Nat
  rescueCount   : Nat
  resumed       : Bool
  derated       : Bool
  earlyRelease  : Bool
  coolTimeout   : Bool
  deriving DecidableEq, Repr

/-- The whole part. `rstHeld` is RST_N held low (R189), `engEn` the level of the ENG_EN pin as last
sampled (R191, DESIGN CHOICE, log 6), `pending` the model's queue of waiting commands (DESIGN CHOICE, log
1). -/
structure State where
  timebase   : Word32
  rstHeld    : Bool
  engEn      : Bool
  rp         : RingPort
  mu         : Management
  profiles   : Vector ProfileRecord 32
  heads      : Vector Head 16
  gens       : Generators
  slots      : SlotClock
  interlocks : Interlocks
  results    : List ResultRecord
  pending    : List Instr
  deriving DecidableEq, Repr

/-- Nothing in the spec stops the part, so no step ends in a fault: the type has no constructor. (The
spec's own "faults" of a head are changes of state, R144.) Nobody raises it: safe. -/
inductive Fault where
  deriving DecidableEq, Repr

/-- Why a step refuses a command. -/
inductive Refusal where
  /-- Raised by an arm of `exec` whose row has no meaning yet; no arm is left that raises it. Safe. -/
  | notModelled (mnemonic : String)
  deriving DecidableEq, Repr

/-! ### Values after a power-on reset -/

/-- The head context after either reset, but for the state (R21). -/
def HeadContext.reset : HeadContext where
  state := .idle
  serial := 0
  profile := none
  revision := 0
  segIndex := 0
  entryOffset := 0
  segStart := 0
  rampOrigin := none
  jointStart := 0
  peak := 0
  timeAboveFlow := 0
  energy := 0
  rescueCount := 0
  segsDone := 0
  derated := false
  earlyRelease := false
  coolTimeout := false
  resumed := false
  suspendedOnce := false
  lastOutcome := .none
  reservation := false
  suspendRec := none
  served := false
  couplingLow := 0
  segTimer := none
  sampleTimer := none
  windowTimer := none
  contEntry := false

/-- The head configuration's power-on values (R22). -/
def HeadConfig.powerOn : HeadConfig where
  binding := none
  priority := 7
  masked := false
  powerLimit := 2500
  couplingMin := 0
  couplingPower := 500
  polPart := .activeOn
  polClamp := .activeOn
  polCoil := .activeOn
  enabled := true

/-- The Heat Control Unit's values after either reset (R49). -/
def Hcu.reset : Hcu where
  filtered := none
  setpoint := 0
  integrator := 0
  demand := 0
  seqRef := none
  lastSample := none
  prevTime := none

/-- An interlock input after either reset (R126). -/
def Input.reset : Input := ⟨none, false, false⟩

/-- A head after a power-on reset. -/
def Head.powerOn : Head where
  ctx := .reset
  cfg := .powerOn
  hcu := .reset
  fr := ⟨[], none, none⟩
  deviations := Vector.replicate 11 0
  inputs := ⟨.reset, .reset, .reset⟩
  rescueReq := false

/-- An empty phase table (R75). -/
def PhaseTable.empty : PhaseTable := ⟨Vector.replicate 32 none, 0⟩

/-- The rotation order after either reset (R96). -/
def rotationReset : List HeadId := [0, 1, 2, 3, 4, 5, 6, 7, 8, 9, 10, 11, 12, 13, 14, 15]

/-- A generator after a power-on reset (R75, R91, R96, R110). -/
def Generator.powerOn : Generator where
  state := .off
  reported := none
  bus := none
  budget := 0
  cause := .none
  wakeTimer := none
  idleTimer := none
  statusTimer := none
  active := .empty
  staged := .empty
  pointer := none
  stagedDiffers := false
  loadPending := false
  history := []
  inService := none
  rotation := rotationReset
  limitTimer := none

/-- The part configuration's power-on values (R194). -/
def PartConfig.powerOn : PartConfig where
  slotPeriod := 5
  concentrator := 0
  ioStation := 0
  stationA := 0
  stationB := 0
  noticeStation := 0
  ratingA := 0
  ratingB := 0
  vt := 460
  vf := 540
  wakeTimeout := 300
  idleDelay := 2000
  interlockTimeout := 30
  rescueLimit := 400
  resumeWindow := 5000
  modeA := .fixed
  modeB := .fixed

/-- The fault policy's power-on values (R139): every kind unmasked. -/
def policyPowerOn : Vector PolicyEntry 9 :=
  #v[⟨false, .suspend⟩, ⟨false, .abort⟩, ⟨false, .suspend⟩, ⟨false, .abort⟩, ⟨false, .abort⟩,
     ⟨false, .abort⟩, ⟨false, .abort⟩, ⟨false, .suspend⟩, ⟨false, .abort⟩]

/-- The station number the straps are taken to give at `State.reset`. DESIGN CHOICE: the spec gives no
strap levels; 4 is the part's place in its ring and in its worked examples (DESIGN CHOICE, log 7). -/
def resetStation : BitVec 6 := 4

/-- The part right after a power-on reset with RST_N released (R201 and the reset columns of every
chapter). ENG_EN is taken low: DESIGN CHOICE (log 6). -/
def State.reset : State where
  timebase := 0
  rstHeld := false
  engEn := false
  rp := { station := resetStation, skipFrame := false, drive := [], forward := [], replies := [],
          notices := [], port := none, counters := Vector.replicate 9 0 }
  mu := { requests := [], config := .powerOn, policy := policyPowerOn, cold := true,
          resetPending := false }
  profiles := Vector.replicate 32 ⟨none, false, 0⟩
  heads := Vector.replicate 16 .powerOn
  gens := ⟨.powerOn, .powerOn⟩
  slots := { timer := 5, period := 5, number := 0, exclusions := [] }
  interlocks := { groups := Vector.replicate 4 ⟨.reset, false⟩, frameTimer := none, timeouts := 0 }
  results := []
  pending := []

end Sys2Proof.Machine
end

