-- ==== Sys2Proof/Machine/Ops.lean ====
section
/-! DEFINITION. The named operations over the part's state: reading and updating one head, generator, group,
profile or counter, the timers, and the bytes of multi-byte values. -/

namespace Sys2Proof.Machine

/-! ### One head, one generator, one group, one profile -/

/-- All heads in ascending number. -/
def allHeads : List HeadId := [0, 1, 2, 3, 4, 5, 6, 7, 8, 9, 10, 11, 12, 13, 14, 15]

/-- All groups in ascending number. -/
def allGroups : List GroupId := [0, 1, 2, 3]

/-- The head `h`. -/
def State.head (s : State) (h : HeadId) : Head := s.heads[h]

/-- `s` with head `h` changed by `f`. -/
def State.modHead (s : State) (h : HeadId) (f : Head → Head) : State :=
  { s with heads := s.heads.set h.val (f s.heads[h]) h.isLt }

/-- `s` with the head context of `h` changed by `f`. -/
def State.modCtx (s : State) (h : HeadId) (f : HeadContext → HeadContext) : State :=
  s.modHead h fun x => { x with ctx := f x.ctx }

/-- `s` with the Heat Control Unit's values of `h` changed by `f`. -/
def State.modHcu (s : State) (h : HeadId) (f : Hcu → Hcu) : State :=
  s.modHead h fun x => { x with hcu := f x.hcu }

/-- `s` with every head changed by `f`. -/
def State.modAllHeads (s : State) (f : HeadId → Head → Head) : State :=
  { s with heads := Vector.ofFn fun h => f h s.heads[h] }

/-- The generator `g`. -/
def State.gen (s : State) : GenId → Generator
  | .a => s.gens.a
  | .b => s.gens.b

/-- `s` with generator `g` changed by `f`. -/
def State.modGen (s : State) (g : GenId) (f : Generator → Generator) : State :=
  match g with
  | .a => { s with gens := { s.gens with a := f s.gens.a } }
  | .b => { s with gens := { s.gens with b := f s.gens.b } }

/-- The coolant group of a head: G0 is H0-H3, G1 is H4-H7 and so on (00_scope.md, naming). -/
def groupOf (h : HeadId) : GroupId := ⟨h.val / 4, by have := h.isLt; omega⟩

/-- The coolant group `g`. -/
def State.group (s : State) (g : GroupId) : Group := s.interlocks.groups[g]

/-- `s` with group `g` changed by `f`. -/
def State.modGroup (s : State) (g : GroupId) (f : Group → Group) : State :=
  { s with interlocks := { s.interlocks with
      groups := s.interlocks.groups.set g.val (f s.interlocks.groups[g]) g.isLt } }

/-- The profile record `p`. -/
def State.profile (s : State) (p : ProfileId) : ProfileRecord := s.profiles[p]

/-- `s` with profile record `p` changed by `f`. -/
def State.modProfile (s : State) (p : ProfileId) (f : ProfileRecord → ProfileRecord) : State :=
  { s with profiles := s.profiles.set p.val (f s.profiles[p]) p.isLt }

/-- `s` with the Ring Port changed by `f`. -/
def State.modRp (s : State) (f : RingPort → RingPort) : State := { s with rp := f s.rp }

/-- `s` with the Management Unit changed by `f`. -/
def State.modMu (s : State) (f : Management → Management) : State := { s with mu := f s.mu }

/-! ### Saturating counts (00_scope.md, counters) -/

/-- A 16-bit counter after one more count: it stays at 65535. -/
def count16 (n : Nat) : Nat := min (n + 1) 65535

/-- A 32-bit total after `d` is added, saturating at 4,294,967,295 (R58, R121). -/
def add32 (n d : Nat) : Nat := min (n + d) 4294967295

/-- The place of a deviation in the order of R155. -/
def Deviation.idx : Deviation → Fin 11
  | .sequenceGap => 0
  | .duplicate => 1
  | .outOfOrder => 2
  | .weak => 3
  | .rescueGranted => 4
  | .rescueMasked => 5
  | .borrowed => 6
  | .derated => 7
  | .earlyRelease => 8
  | .lateEnergy => 9
  | .energyMismatch => 10

/-- The place of a port counter in the order of R188. -/
def PortCounter.idx : PortCounter → Fin 9
  | .crcError => 0
  | .malformed => 1
  | .returned => 2
  | .foreignSource => 3
  | .unknownKind => 4
  | .requestOverflow => 5
  | .forwardOverrun => 6
  | .driveReplaced => 7
  | .noticeDropped => 8

/-- The place of a fault kind in the order of R139. -/
def FaultKind.idx : FaultKind → Fin 9
  | .sensorLost => 0
  | .overtemp => 1
  | .segmentOvertime => 2
  | .soakDeficit => 3
  | .couplingLow => 4
  | .interlockLost => 5
  | .coolantLost => 6
  | .generatorFault => 7
  | .suspendExpired => 8

/-- The nine kinds in the order of R139. -/
def FaultKind.all : List FaultKind :=
  [.sensorLost, .overtemp, .segmentOvertime, .soakDeficit, .couplingLow, .interlockLost,
   .coolantLost, .generatorFault, .suspendExpired]

/-- One deviation counted for a head (R155). -/
def State.countDev (s : State) (h : HeadId) (d : Deviation) : State :=
  s.modHead h fun x =>
    { x with deviations := x.deviations.set d.idx.val (count16 x.deviations[d.idx]) d.idx.isLt }

/-- One count of a port counter (R188). -/
def RingPort.count (rp : RingPort) (c : PortCounter) : RingPort :=
  { rp with counters := rp.counters.set c.idx.val (count16 rp.counters[c.idx]) c.idx.isLt }

/-- One count of a port counter (R188), on the whole state. -/
def State.countPort (s : State) (c : PortCounter) : State := s.modRp fun rp => rp.count c

/-! ### Timers -/

/-- A timer after one millisecond: a running timer has one millisecond less left, and stays at 0 until its
expiry is taken (DESIGN CHOICE, log 2, DEDUCED, log 3). -/
def tickTimer : Option Nat → Option Nat
  | none => none
  | some n => some (n - 1)

/-- A timer has reached its end and its expiry has not been taken. -/
def due (t : Option Nat) : Bool := t == some 0

/-- Three slot periods in force, the length of the sample and status timers (R29, R115). -/
def State.threeSlots (s : State) : Nat := 3 * s.slots.period

/-- The milliseconds from the reading `t` to the timebase, modulo 2^32 (R1). -/
def State.since (s : State) (t : Word32) : Nat := (s.timebase - t).toNat

/-! ### Bytes of a payload, least significant byte first (R174, R177) -/

/-- One byte. -/
def byte (n : Nat) : Byte := BitVec.ofNat 8 n

/-- Two bytes. -/
def le16 (n : Nat) : List Byte := [byte n, byte (n / 256)]

/-- Four bytes. -/
def le32 (n : Nat) : List Byte :=
  [byte n, byte (n / 256), byte (n / 65536), byte (n / 16777216)]

/-- The value of two bytes. -/
def ofLe16 (b0 b1 : Byte) : Word16 := b1 ++ b0

/-- The value of four bytes. -/
def ofLe32 (b0 b1 b2 b3 : Byte) : Word32 := b3 ++ b2 ++ (b1 ++ b0)

/-- The bytes of a 2-byte value. -/
def enc16 (w : Word16) : List Byte := le16 w.toNat

/-- The bytes of a 4-byte value. -/
def enc32 (w : Word32) : List Byte := le32 w.toNat

/-- A flag: 0 clear, 1 set. -/
def flagByte (b : Bool) : Byte := if b then 1 else 0

/-- An optional field: a presence byte, and the value where it is present. -/
def optBytes {α : Type} (enc : α → List Byte) : Option α → List Byte
  | none => [0]
  | some a => 1 :: enc a

/-! ### Running a command -/

/-- What a command does while the part is out of reset. While RST_N is held low the part stays in its
power-on state and takes no event (R189, DEDUCED, log 4). -/
def live (f : State → State) (s : State) : Host.Outcome State Fault Refusal :=
  .next (if s.rstHeld then s else f s)

end Sys2Proof.Machine
end

