-- ==== Sys2Proof/Machine/Codes.lean ====
section
/-! DEFINITION. The one-byte codes of the named values (R177): 0 for the first value of the list that
defines the set, 1 for the next, and so on (DEDUCED, log 14, log 15). -/

namespace Sys2Proof.Machine

/-- R177's example: IDLE 0 to DISABLED 5. -/
def HeadState.code : HeadState → Byte
  | .idle => 0
  | .waitGen => 1
  | .running => 2
  | .suspended => 3
  | .faulted => 4
  | .disabled => 5

/-- R177's example: NONE 0 to FAULT 4. -/
def JointOutcome.code : JointOutcome → Byte
  | .none => 0
  | .accept => 1
  | .reject => 2
  | .aborted => 3
  | .fault => 4

/-- Fault kinds take 0-8 in the order of R139. -/
def FaultKind.code (k : FaultKind) : Byte := byte k.idx.val

/-- The severities in the order of R140. -/
def Severity.code : Severity → Byte
  | .suspend => 0
  | .abort => 1

/-- The actions in the order of R143. -/
def FaultAction.code : FaultAction → Byte
  | .abort => 0
  | .suspend => 1
  | .escalated => 2
  | .recorded => 3

/-- The generator states in the order of R110. -/
def GenState.code : GenState → Byte
  | .off => 0
  | .standby => 1
  | .waking => 2
  | .ready => 3
  | .faulted => 4

/-- The reported states of R178. -/
def Reported.code : Reported → Byte
  | .standby => 0
  | .waking => 1
  | .ready => 2
  | .fault => 3

/-- R177's example: none 0 to UNEXPECTED_STATE 4. -/
def GenCause.code : GenCause → Byte
  | .none => 0
  | .wakeTimeout => 1
  | .statusLost => 2
  | .reportedFault => 3
  | .unexpectedState => 4

/-- R178: GOOD 0, WEAK 1, NONE 2. -/
def Quality.code : Quality → Byte
  | .good => 0
  | .weak => 1
  | .none => 2

/-- The rescue modes in the order of R194. -/
def RescueMode.code : RescueMode → Byte
  | .fixed => 0
  | .rotating => 1

/-- The criteria in the order of R165 (the order of R9). -/
def Criterion.code : Criterion → Byte
  | .minPeak => 0
  | .maxPeak => 1
  | .minFlow => 2
  | .maxFlow => 3
  | .minEnergy => 4
  | .maxEnergy => 5
  | .maxRescues => 6
  | .fullCool => 7

/-- The status codes of R179. -/
def Status.code : Status → Byte
  | .ok => 0
  | .busy => 1
  | .denied => 2
  | .badArgument => 3
  | .badState => 4
  | .badTable => 5
  | .locked => 6
  | .inUse => 7
  | .stale => 8
  | .notReady => 9
  | .interlock => 10
  | .full => 11
  | .unknownCommand => 12

/-- R177: 0 for A, 1 for B. -/
def genCode : GenId → Byte
  | .a => 0
  | .b => 1

/-- R177: 0 for A, 1 for B, 2 for NONE. -/
def bindingCode : Option GenId → Byte
  | some g => genCode g
  | none => 2

/-- R177: 0-15 for H0-H15, 255 for none and for an EMPTY entry. -/
def headCode : Option HeadId → Byte
  | some h => byte h.val
  | none => 255

/-- The polarities in the order of R22. -/
def polarityCode : Polarity → Byte
  | .activeOn => 0
  | .activeOff => 1

/-- "masked or unmasked" (R22, R140): masked 0, unmasked 1 (DEDUCED, log 14). -/
def maskCode (masked : Bool) : Byte := if masked then 0 else 1

/-- "on, off, or none" (R126): on 0, off 1, none 2 (DEDUCED, log 14). -/
def rawCode : Option Bool → Byte
  | some true => 0
  | some false => 1
  | none => 2

/-- "SATISFIED or UNSATISFIED" (R126): SATISFIED 0, UNSATISFIED 1. -/
def satisfiedCode (b : Bool) : Byte := if b then 0 else 1

/-- "MANUAL, or the fault kind" (R39): MANUAL 0, then the nine kinds (DEDUCED, log 15). -/
def SuspendCause.code : SuspendCause → Byte
  | .manual => 0
  | .fault k => byte (1 + k.idx.val)

end Sys2Proof.Machine
end

