-- ==== Sys2Proof/Machine/Operands.lean ====
section
/-! DEFINITION. The operands of a management request: which head, generator, group or profile a byte names,
the arguments as bytes and the reading of them (R177, R190 step 3). -/

namespace Sys2Proof.Machine

/-! ### What a byte names -/

/-- The head a byte names, if it is 0-15. -/
def headOf (b : Byte) : Option HeadId :=
  if h : b.toNat < 16 then some ⟨b.toNat, h⟩ else none

/-- The profile a byte names, if it is 0-31. -/
def profileOf (b : Byte) : Option ProfileId :=
  if h : b.toNat < 32 then some ⟨b.toNat, h⟩ else none

/-- The group a byte names, if it is 0-3. -/
def groupOfByte (b : Byte) : Option GroupId :=
  if h : b.toNat < 4 then some ⟨b.toNat, h⟩ else none

/-- The generator a byte names: 0 A, 1 B. -/
def genOf (b : Byte) : Option GenId :=
  if b = 0 then some .a else if b = 1 then some .b else none

/-- The binding a byte names: 0 A, 1 B, 2 NONE. -/
def bindingOf (b : Byte) : Option (Option GenId) :=
  if b = 0 then some (some .a) else if b = 1 then some (some .b) else if b = 2 then some none else none

/-- The phase table entry a byte names: a head, or 255 for EMPTY (R177). -/
def entryOf (b : Byte) : Option (Option HeadId) :=
  if b = 255 then some none else (headOf b).map some

/-- The fault kind a byte names: 0-8 in the order of R139. -/
def kindOf (b : Byte) : Option FaultKind := FaultKind.all[b.toNat]?

/-- The severity a byte names: 0 SUSPEND, 1 ABORT. -/
def severityOf (b : Byte) : Option Severity :=
  if b = 0 then some .suspend else if b = 1 then some .abort else none

/-- The rescue mode a byte names: 0 FIXED, 1 ROTATING. -/
def modeOf (b : Byte) : Option RescueMode :=
  if b = 0 then some .fixed else if b = 1 then some .rotating else none

/-- A byte that R177 gives two codes and no rule checks: 0 and 1 are the two values, any other a free
value (DESIGN CHOICE, log 12). -/
def openByte (f : OpenField) (b : Byte) : Option Bool :=
  if b = 0 then some false else if b = 1 then some true else Config.openCode f b

/-- A polarity from its two-valued code. -/
def polarityOf (code : Bool) : Polarity := if code then .activeOff else .activeOn

/-! ### Reading bytes -/

/-- A reader of some leading bytes: the value and the bytes after it, or nothing where they do not fit. -/
abbrev Reader (α : Type) := List Byte → Option (α × List Byte)

/-- One byte. -/
def readByte : Reader Byte
  | b :: rest => some (b, rest)
  | _ => none

/-- Two bytes. -/
def read16 : Reader Word16
  | b0 :: b1 :: rest => some (ofLe16 b0 b1, rest)
  | _ => none

/-- Four bytes. -/
def read32 : Reader Word32
  | b0 :: b1 :: b2 :: b3 :: rest => some (ofLe32 b0 b1 b2 b3, rest)
  | _ => none

/-- A two-valued byte. -/
def readOpen (f : OpenField) : Reader Bool
  | b :: rest => (openByte f b).map fun v => (v, rest)
  | _ => none

/-- `p`, then what `f` reads on its value. -/
def andThen {α β : Type} (p : Reader α) (f : α → Reader β) : Reader β := fun bs =>
  match p bs with
  | some (a, rest) => f a rest
  | none => none

/-- A value without reading. -/
def readPure {α : Type} (a : α) : Reader α := fun bs => some (a, bs)

/-- An optional field (R177). -/
def readOpt {α : Type} (p : Reader α) : Reader (Option α) :=
  andThen (readOpen .presence) fun present =>
    if present then andThen p fun a => readPure (some a) else readPure none

/-- `n` items. -/
def readMany {α : Type} (p : Reader α) : Nat → Reader (List α)
  | 0 => readPure []
  | n + 1 => andThen p fun a => andThen (readMany p n) fun as => readPure (a :: as)

/-- A list of varying length: a count byte and that many items (R177). -/
def readList {α : Type} (p : Reader α) : Reader (List α) :=
  andThen readByte fun n => readMany p n.toNat

/-- Two bytes as a pair. -/
def readPair : Reader (Byte × Byte) :=
  andThen readByte fun x => andThen readByte fun y => readPure (x, y)

/-- Nothing but the arguments' end: the command has none. -/
def readNone : Reader Unit := readPure ()

/-- All the bytes left, as pairs. -/
def readPairs : List Byte → Option (List (Byte × Byte))
  | [] => some []
  | x :: y :: rest => (readPairs rest).map fun ps => (x, y) :: ps
  | _ => none

/-- The arguments as a whole: bytes left over are the wrong size (R190 step 3). -/
def readAll {α : Type} (p : Reader α) (bs : List Byte) : Option α :=
  match p bs with
  | some (a, []) => some a
  | _ => none

/-! ### The arguments of each command, in the order its rule names them (R177) -/

/-- START (R25): head, profile, joint serial. -/
def readStart : Reader (Byte × Byte × Word32) :=
  andThen readByte fun h => andThen readByte fun p => andThen read32 fun n => readPure (h, p, n)

/-- RESUME HEAD (R42): head, from-segment, continue flag. -/
def readResume : Reader (Byte × Byte × Bool) :=
  andThen readByte fun h => andThen readByte fun k => andThen (readOpen .continueFlag) fun c =>
    readPure (h, k, c)

/-- CLEAR FAULTS (R150): head, set of kinds. -/
def readClearFaults : Reader (Byte × List Byte) :=
  andThen readByte fun h => andThen (readList readByte) fun ks => readPure (h, ks)

/-- ERASE PROFILE (R17): profile, expected revision. -/
def readErase : Reader (Byte × Option Word16) :=
  andThen readByte fun p => andThen (readOpt read16) fun e => readPure (p, e)

/-- LOCK PROFILE and UNLOCK PROFILE (R18, R19): the profile; a request that carries an expected revision
as well is read as if it carried none (R14, DEDUCED, log 19). -/
def readLock : Reader (Byte × Option Word16) := fun bs =>
  match bs with
  | [p] => some ((p, none), [])
  | _ => readErase bs

/-- WRITE PHASES (R77): generator, start index, entries, new length. -/
def readWritePhases : Reader (Byte × Byte × List Byte × Byte) :=
  andThen readByte fun g => andThen readByte fun i => andThen (readList readByte) fun es =>
    andThen readByte fun n => readPure (g, i, es, n)

/-- WRITE HEAD CONFIG (R23). -/
def readHeadConfig : Reader HeadConfigArg :=
  andThen readByte fun head => andThen readByte fun binding => andThen readByte fun priority =>
  andThen (readOpen .rescueMask) fun unmasked => andThen read16 fun powerLimit =>
  andThen read16 fun couplingMin => andThen read16 fun couplingPower =>
  andThen (readOpen .polarity) fun p1 => andThen (readOpen .polarity) fun p2 =>
  andThen (readOpen .polarity) fun p3 =>
    readPure { head, binding, priority, masked := !unmasked, powerLimit, couplingMin, couplingPower,
               polPart := polarityOf p1, polClamp := polarityOf p2, polCoil := polarityOf p3 }

/-- WRITE PART CONFIG (R195): every field of R194. -/
def readPartConfig : Reader PartConfigArg :=
  andThen read16 fun slotPeriod => andThen readByte fun concentrator => andThen readByte fun ioStation =>
  andThen readByte fun stationA => andThen readByte fun stationB => andThen readByte fun noticeStation =>
  andThen read16 fun ratingA => andThen read16 fun ratingB => andThen read16 fun vt =>
  andThen read16 fun vf => andThen read16 fun wakeTimeout => andThen read16 fun idleDelay =>
  andThen read16 fun interlockTimeout => andThen read16 fun rescueLimit =>
  andThen read16 fun resumeWindow => andThen readByte fun modeA => andThen readByte fun modeB =>
    readPure { slotPeriod, concentrator, ioStation, stationA, stationB, noticeStation, ratingA, ratingB,
               vt, vf, wakeTimeout, idleDelay, interlockTimeout, rescueLimit, resumeWindow, modeA, modeB }

/-- One segment of a WRITE PROFILE (R177 item 4). A kind that is none of the three leaves what follows
without a layout, and the reading ends (R13 check 3). -/
def readSegment : Reader SegArg :=
  andThen readByte fun kind =>
    if kind = 0 then
      andThen read16 fun t => andThen read16 fun r => andThen read16 fun b => andThen read16 fun l =>
        andThen read16 fun c => readPure (.ramp t r b l c)
    else if kind = 1 then
      andThen read16 fun t => andThen read16 fun d => andThen read16 fun c => readPure (.soak t d c)
    else if kind = 2 then
      andThen read16 fun t => andThen read16 fun l => readPure (.cool t l)
    else fun _ => none

/-- The criteria of a WRITE PROFILE, in the order of R9 (R177 item 5). -/
def readCriteria : Reader CriteriaArg :=
  andThen (readOpt read16) fun minPeak => andThen (readOpt read16) fun maxPeak =>
  andThen (readOpt read32) fun minFlow => andThen (readOpt read32) fun maxFlow =>
  andThen (readOpt read32) fun minEnergy => andThen (readOpt read32) fun maxEnergy =>
  andThen (readOpt readByte) fun maxRescues => andThen (readOpen .presence) fun fullCool =>
    readPure { minPeak, maxPeak, minFlow, maxFlow, minEnergy, maxEnergy, maxRescues, fullCool }

/-- WRITE PROFILE (R177). -/
def readWriteProfile : Reader ProfileArg :=
  andThen readByte fun profile => andThen (readOpt read16) fun expected =>
  andThen read16 fun flowTemp => andThen read16 fun maxTemp => andThen readByte fun weight =>
  andThen readByte fun kp => andThen readByte fun ki => andThen read16 fun deficitBand =>
  andThen read16 fun recoverBand => andThen readByte fun segCount =>
  andThen (readMany readSegment segCount.toNat) fun segments => andThen readCriteria fun criteria =>
    readPure { profile, expected, flowTemp, maxTemp, weight, kp, ki, deficitBand, recoverBand,
               segCount, segments, criteria }

/-! ### The arguments as bytes -/

/-- START. -/
def encStart (h p : Byte) (n : Word32) : List Byte := h :: p :: enc32 n

/-- RESUME HEAD. -/
def encResume (h k : Byte) (c : Bool) : List Byte := [h, k, flagByte c]

/-- A list of bytes behind its count byte. -/
def encList (bs : List Byte) : List Byte := byte bs.length :: bs

/-- ERASE PROFILE. -/
def encErase (p : Byte) (e : Option Word16) : List Byte := p :: optBytes enc16 e

/-- LOCK PROFILE and UNLOCK PROFILE. -/
def encLock (p : Byte) : Option Word16 → List Byte
  | none => [p]
  | some e => p :: optBytes enc16 (some e)

/-- A list of byte pairs behind its count byte. -/
def encPairs (ps : List (Byte × Byte)) : List Byte :=
  byte ps.length :: ps.flatMap fun p => [p.1, p.2]

/-- WRITE PHASES. -/
def encWritePhases (g i : Byte) (es : List Byte) (n : Byte) : List Byte :=
  g :: i :: (encList es ++ [n])

/-- WRITE HEAD CONFIG. -/
def encHeadConfig (w : HeadConfigArg) : List Byte :=
  [w.head, w.binding, w.priority, maskCode w.masked] ++ enc16 w.powerLimit ++ enc16 w.couplingMin
    ++ enc16 w.couplingPower ++ [polarityCode w.polPart, polarityCode w.polClamp, polarityCode w.polCoil]

/-- WRITE PART CONFIG. -/
def encPartConfig (w : PartConfigArg) : List Byte :=
  enc16 w.slotPeriod ++ [w.concentrator, w.ioStation, w.stationA, w.stationB, w.noticeStation]
    ++ enc16 w.ratingA ++ enc16 w.ratingB ++ enc16 w.vt ++ enc16 w.vf ++ enc16 w.wakeTimeout
    ++ enc16 w.idleDelay ++ enc16 w.interlockTimeout ++ enc16 w.rescueLimit ++ enc16 w.resumeWindow
    ++ [w.modeA, w.modeB]

/-- One segment. -/
def encSegment : SegArg → List Byte
  | .ramp t r b l c => 0 :: (enc16 t ++ enc16 r ++ enc16 b ++ enc16 l ++ enc16 c)
  | .soak t d c => 1 :: (enc16 t ++ enc16 d ++ enc16 c)
  | .cool t l => 2 :: (enc16 t ++ enc16 l)
  | .other k => [k]

/-- The criteria. -/
def encCriteria (c : CriteriaArg) : List Byte :=
  optBytes enc16 c.minPeak ++ optBytes enc16 c.maxPeak ++ optBytes enc32 c.minFlow
    ++ optBytes enc32 c.maxFlow ++ optBytes enc32 c.minEnergy ++ optBytes enc32 c.maxEnergy
    ++ optBytes (fun b => [b]) c.maxRescues ++ [flagByte c.fullCool]

/-- WRITE PROFILE. -/
def encWriteProfile (w : ProfileArg) : List Byte :=
  w.profile :: (optBytes enc16 w.expected ++ enc16 w.flowTemp ++ enc16 w.maxTemp
    ++ [w.weight, w.kp, w.ki] ++ enc16 w.deficitBand ++ enc16 w.recoverBand ++ [w.segCount]
    ++ w.segments.flatMap encSegment ++ encCriteria w.criteria)

/-- WRITE FAULT POLICY: mask and severity of each kind in the order of R139 (DEDUCED, log 13). -/
def encPolicyArgs (ps : List (Byte × Byte)) : List Byte := ps.flatMap fun p => [p.1, p.2]

end Sys2Proof.Machine
end

