-- ==== Sys2Proof/Machine/Flags.lean ====
section
/-! DEFINITION. The verdicts and status views the blocks read from one another: whether a head holds a joint,
its interlock verdict, whether a profile is in use, who holds a generator, the FAULT_N level, a fault
kind's severity, the budget. -/

namespace Sys2Proof.Machine

/-- A head holds a joint in WAIT_GEN, RUNNING and SUSPENDED (section 2.2). -/
def HeadState.holdsJoint : HeadState → Bool
  | .waitGen | .running | .suspended => true
  | .idle | .faulted | .disabled => false

/-- Head `h` holds a joint. -/
def State.holds (s : State) (h : HeadId) : Bool := (s.head h).ctx.state.holdsJoint

/-- Some head holds a joint: the in-use test of R195. -/
def State.anyHolds (s : State) : Bool := allHeads.any s.holds

/-- A head's interlocks are satisfied (R130). -/
def HeadInputs.verdict (i : HeadInputs) : Bool :=
  i.part.satisfied && i.clamp.satisfied && i.coil.satisfied

/-- The verdict of head `h` (R130). -/
def State.verdict (s : State) (h : HeadId) : Bool := (s.head h).inputs.verdict

/-- The latch of the coolant group of head `h`. -/
def State.latched (s : State) (h : HeadId) : Bool := (s.group (groupOf h)).latch

/-- What START, RESUME HEAD and the slot selection ask: interlocks satisfied and latch clear (R130). -/
def State.interlocksOk (s : State) (h : HeadId) : Bool := s.verdict h && !s.latched h

/-- A profile record is in use (R15). -/
def State.inUse (s : State) (p : ProfileId) : Bool :=
  allHeads.any fun h => s.holds h && ((s.head h).ctx.profile == some p)

/-- Some head bound to `g` holds it (R116). -/
def State.genHeld (s : State) (g : GenId) : Bool :=
  allHeads.any fun h => s.holds h && ((s.head h).cfg.binding == some g)

/-- The reservation count: the heads that hold a reservation (R160, R161; DEDUCED, log 26). -/
def State.reservations (s : State) : Nat := allHeads.countP fun h => (s.head h).ctx.reservation

/-- The free places of the Result Queue (R161). -/
def State.freePlaces (s : State) : Nat := 48 - s.results.length - s.reservations

/-- The level of FAULT_N (R157): `true` is high. It is low while a head or a generator is FAULTED. -/
def State.faultN (s : State) : Bool :=
  !(allHeads.any (fun h => (s.head h).ctx.state == .faulted)
    || s.gens.a.state == .faulted || s.gens.b.state == .faulted)

/-- The four kinds whose severity is fixed at ABORT (R139). -/
def FaultKind.fixedAbort : FaultKind → Bool
  | .overtemp | .interlockLost | .coolantLost | .suspendExpired => true
  | _ => false

/-- The severity applied to a kind (R139, R140). -/
def State.severity (s : State) (k : FaultKind) : Severity :=
  if k.fixedAbort then .abort else s.mu.policy[k.idx].severity

/-- A kind is masked (R140). -/
def State.masked (s : State) (k : FaultKind) : Bool := s.mu.policy[k.idx].masked

/-- The contents of the profile bound by head `h`, where there is one (R15's law: a head that holds a
joint has one). -/
def State.recipe (s : State) (h : HeadId) : Option Recipe :=
  (s.head h).ctx.profile.bind fun p => (s.profile p).recipe

/-- The current segment of head `h`: the one its segment index names. -/
def State.segment (s : State) (h : HeadId) : Option Segment :=
  (s.recipe h).bind fun r => r.segments[(s.head h).ctx.segIndex]?

/-- A segment that may be powered: RAMP or SOAK. -/
def Segment.heats : Segment → Bool
  | .cool .. => false
  | _ => true

/-- A SOAK. -/
def Segment.isSoak : Segment → Bool
  | .soak .. => true
  | _ => false

/-- The ceiling of a segment (R6, R7); a COOL draws no power. -/
def Segment.ceiling : Segment → Nat
  | .ramp _ _ _ _ c => c
  | .soak _ _ c => c
  | .cool .. => 0

/-- The limit of a RAMP or COOL, the duration of a SOAK (R29 step 2). -/
def Segment.length : Segment → Nat
  | .ramp _ _ _ l _ => l
  | .soak _ d _ => d
  | .cool _ l => l

/-- The head's current segment is a COOL. -/
def State.inCool (s : State) (h : HeadId) : Bool :=
  match s.segment h with
  | some (.cool ..) => true
  | _ => false

/-- The station configured for a generator (R194). -/
def PartConfig.station (c : PartConfig) : GenId → Nat
  | .a => c.stationA
  | .b => c.stationB

/-- The rating configured for a generator (R194). -/
def PartConfig.rating (c : PartConfig) : GenId → Nat
  | .a => c.ratingA
  | .b => c.ratingB

/-- The rescue mode configured for a generator (R194). -/
def PartConfig.mode (c : PartConfig) : GenId → RescueMode
  | .a => c.modeA
  | .b => c.modeB

/-- The configuration gives a generator a station other than 0 and a rating of at least 1 (R110). -/
def PartConfig.hasGen (c : PartConfig) (g : GenId) : Bool :=
  c.station g != 0 && c.rating g != 0

/-- The budget at a bus voltage (R119). -/
def PartConfig.budgetAt (c : PartConfig) (g : GenId) (v : Nat) : Nat :=
  if v ≥ c.vf then c.rating g
  else if v ≤ c.vt then 0
  else c.rating g * (v - c.vt) / (c.vf - c.vt)

/-- The budget from a recorded bus voltage: 0 where it is none (R119, R120). -/
def PartConfig.budget (c : PartConfig) (g : GenId) : Option Nat → Nat
  | none => 0
  | some v => c.budgetAt g v

/-- The MU is ready to take a request (R192). -/
def State.muReady (s : State) : Bool := s.rp.replies.length < 4 && !s.mu.resetPending

/-- The Ring Port is in transparent operation (R173). -/
def State.transparent (s : State) : Bool := s.rp.station == 0 || s.rp.station == 63

/-- The part's station as a frame byte. -/
def State.ownStation (s : State) : Byte := s.rp.station.zeroExtend 8

end Sys2Proof.Machine
end

