-- ==== Sys2Proof/Machine/Ring.lean ====
section
/-! DEFINITION. The frames of the ring and the downstream side of the Ring Port: the check of R175, the frames
the part originates (R174, R179, R186), its transmit queues and the sending port (R183-R185), and the
notices (R202). -/

namespace Sys2Proof.Machine

/-! ### Frames -/

/-- The check register after one message bit (R175). -/
def crcBit (reg : BitVec 16) (bit : Bool) : BitVec 16 :=
  if (reg.getLsbD 0 ^^ bit) then (reg >>> 1) ^^^ 0xA001#16 else reg >>> 1

/-- The check register after one byte, least significant bit first (R175). -/
def crcByte (reg : BitVec 16) (b : Byte) : BitVec 16 :=
  [0, 1, 2, 3, 4, 5, 6, 7].foldl (fun r i => crcBit r (b.getLsbD i)) reg

/-- The check value of some bytes (R175). -/
def crc (bs : List Byte) : BitVec 16 := bs.foldl crcByte 0xFFFF#16

/-- A frame (R174): destination, source, kind, length, payload, check low byte first. -/
def mkFrame (dst src kind : Byte) (payload : List Byte) : List Byte :=
  let body := dst :: src :: kind :: byte payload.length :: payload
  body ++ le16 (crc body).toNat

/-- The kind codes of R176 the model names. -/
def kindSample : Byte := 1
/-- GENSTAT. -/
def kindGenstat : Byte := 2
/-- INTERLOCK. -/
def kindInterlock : Byte := 3
/-- MGMT_REQ. -/
def kindRequest : Byte := 4
/-- DRIVE. -/
def kindDrive : Byte := 8
/-- MGMT_REPLY. -/
def kindReply : Byte := 9
/-- NOTICE. -/
def kindNotice : Byte := 10

/-- The payload of an MGMT_REQ (R178). -/
def requestPayload (r : ReqHead) (code : Byte) (args : List Byte) : List Byte :=
  enc16 r.tag ++ [r.authority, code] ++ args

/-- The frame of a request addressed to the part at station `own`. -/
def requestFrame (own : Byte) (r : ReqHead) (code : Byte) (args : List Byte) : List Byte :=
  mkFrame own r.source kindRequest (requestPayload r code args)

/-! ### The transmit queues and the port -/

/-- Places a DRIVE frame for a generator (R92, R184): it replaces an unsent one in its place, else it fills
the place, and begins at once where the port is free and the queue empty (R185). -/
def RingPort.placeDrive (rp : RingPort) (g : GenId) (f : TxFrame) : RingPort :=
  if rp.drive.any (fun p => p.1 == g) then
    ({ rp with drive := rp.drive.map fun p => if p.1 == g then (g, f) else p } : RingPort).count
      .driveReplaced
  else if rp.port.isNone && rp.drive.isEmpty then { rp with port := some f }
  else { rp with drive := rp.drive ++ [(g, f)] }

/-- Appends a foreign frame to the forward queue, or drops it at 24 (R183, R185). -/
def RingPort.placeForward (rp : RingPort) (bytes : List Byte) : RingPort :=
  if rp.forward.length ≥ 24 then rp.count .forwardOverrun
  else if rp.port.isNone && rp.forward.isEmpty then { rp with port := some ⟨bytes, false⟩ }
  else { rp with forward := rp.forward ++ [⟨bytes, false⟩] }

/-- Appends a reply (R184, R185). -/
def RingPort.placeReply (rp : RingPort) (f : TxFrame) : RingPort :=
  if rp.port.isNone && rp.replies.isEmpty then { rp with port := some f }
  else { rp with replies := rp.replies ++ [f] }

/-- Offers a notice to the notice queue, which drops the newest at 16 (R184, R185). -/
def RingPort.placeNotice (rp : RingPort) (f : TxFrame) : RingPort :=
  if rp.notices.length ≥ 16 then rp.count .noticeDropped
  else if rp.port.isNone && rp.notices.isEmpty then { rp with port := some f }
  else { rp with notices := rp.notices ++ [f] }

/-- The port takes its next frame, or becomes free (R185): drive, forward, reply, notice. -/
def RingPort.beginNext (rp : RingPort) : RingPort :=
  match rp.drive, rp.forward, rp.replies, rp.notices with
  | p :: rest, _, _, _ => { rp with port := some p.2, drive := rest }
  | [], f :: rest, _, _ => { rp with port := some f, forward := rest }
  | [], [], f :: rest, _ => { rp with port := some f, replies := rest }
  | [], [], [], f :: rest => { rp with port := some f, notices := rest }
  | [], [], [], [] => { rp with port := none }

/-- The next frame the port takes comes from the reply queue. -/
def RingPort.nextIsReply (rp : RingPort) : Bool :=
  rp.drive.isEmpty && rp.forward.isEmpty && !rp.replies.isEmpty

/-! ### Notices -/

/-- Makes a notice: not made where the notice station is 0, else a NOTICE frame offered to the queue
(R202). `payload` begins with the notice kind (R179). -/
def State.notice (s : State) (payload : List Byte) : State :=
  if s.mu.config.noticeStation = 0 then s
  else s.modRp fun rp => rp.placeNotice
    ⟨mkFrame (byte s.mu.config.noticeStation) s.ownStation kindNotice payload, false⟩

/-- PHASE_LOADED (R80): generator, new active length, slot number. -/
def State.noticePhaseLoaded (s : State) (g : GenId) : State :=
  s.notice [1, genCode g, byte (s.gen g).active.length, s.slots.number]

/-- GEN_STATE (R124): generator, state left, state entered, the fault cause for an entry into FAULTED
(none otherwise, DEDUCED, log 16), bus voltage or none, slot number. -/
def State.noticeGenState (s : State) (g : GenId) (left : GenState) : State :=
  let x := s.gen g
  s.notice ([2, genCode g, left.code, x.state.code,
      if x.state = .faulted then x.cause.code else GenCause.none.code]
    ++ optBytes le16 x.bus ++ [s.slots.number])

/-- HEAD_FAULT (R149): head, kind, action, joint serial, capture taken, state after, slot number. -/
def State.noticeHeadFault (s : State) (h : HeadId) (k : FaultKind) (act : FaultAction)
    (captured : Bool) (after : HeadState) : State :=
  s.notice ([3, headCode (some h), k.code, act.code] ++ le32 (s.head h).ctx.serial.toNat
    ++ [flagByte captured, after.code, s.slots.number])

/-- JOINT_END (R170): serial, head, outcome, fault kind for FAULT, queued records, reservation count,
slot number. The kind is an optional field, absent for the other outcomes (DEDUCED, log 35). -/
def State.noticeJointEnd (s : State) (h : HeadId) (o : JointOutcome) (k : Option FaultKind) : State :=
  s.notice (4 :: le32 (s.head h).ctx.serial.toNat ++ [headCode (some h), o.code]
    ++ optBytes (fun k => [FaultKind.code k]) k
    ++ [byte s.results.length, byte s.reservations, s.slots.number])

/-- COOLANT_LATCH (R133): group, raw coolant state, slot number. -/
def State.noticeCoolantLatch (s : State) (g : GroupId) : State :=
  s.notice [5, byte g.val, rawCode (s.group g).flow.raw, s.slots.number]

end Sys2Proof.Machine
end

