-- ==== Sys2Proof/Machine/Answers.lean ====
section
/-! DEFINITION. The answer of a taken request (R193), its reply frame, and the arrival and taking of a request
(R182, R190-R192). -/

namespace Sys2Proof.Machine

/-- What carrying out a request gives: the reply's status and data, the reset mark (R187), and the part
after the request's effects. -/
structure Answer where
  status : Status
  data   : List Byte
  mark   : Bool
  after  : State
  deriving DecidableEq, Repr

/-- A refusal: no effect, no data (R190, R193). -/
def refuse (st : Status) (s : State) : Answer := ⟨st, [], false, s⟩

/-- An accepted request with its data. -/
def accept (data : List Byte) (s : State) : Answer := ⟨.ok, data, false, s⟩

/-- The reply frame to a request (R179, R186): addressed to the request's source. -/
def replyFrame (own : Byte) (q : Request) (st : Status) (data : List Byte) : List Byte :=
  mkFrame q.source own kindReply (enc16 q.tag ++ [q.code, st.code] ++ data)

/-- Appends the reply (R193). -/
def sendReply (q : Request) (a : Answer) : State :=
  a.after.modRp fun rp =>
    rp.placeReply ⟨replyFrame a.after.ownStation q a.status a.data, a.mark⟩

/-- The effective authority of a request is ENGINEER (R191). -/
def engineer (q : Request) (s : State) : Bool := q.authority == 1 && s.engEn

/-- An operator command taken: carried out and answered (R192, R193). -/
def serveOperator (q : Request) (body : State → Answer) (s : State) : State := sendReply q (body s)

/-- An engineer command taken: DENIED without the authority (R190 step 2, R191). -/
def serveEngineer (q : Request) (body : State → Answer) (s : State) : State :=
  sendReply q (if engineer q s then body s else refuse .denied s)

/-- A command whose arguments are read from bytes: the wrong size is BAD_ARGUMENT (R190 step 3). -/
def withArgs {α : Type} (read : Reader α) (args : List Byte) (f : α → State → Answer) (s : State) :
    Answer :=
  match readAll read args with
  | some a => f a s
  | none => refuse .badArgument s

/-- A request handed to the Management Unit (R182, R192): dropped where the queue holds 4, taken at once by
`take` where the MU is ready and no other waits, appended otherwise. -/
def requestArrives (q : Request) (take : State → State) (s : State) : State :=
  if s.mu.requests.length ≥ 4 then s.countPort .requestOverflow
  else if s.muReady && s.mu.requests.isEmpty then take s
  else s.modMu fun m => { m with requests := m.requests ++ [q] }

/-- What the upstream port does first with whatever arrives: a frame that was under way at the release of
RST_N is not received (R189, DEDUCED, log 5), and ENG_EN has the level the event gives (DESIGN CHOICE, log
6). -/
def receive (engEn : Bool) (f : State → State) (s : State) : State :=
  let s := { s with engEn := engEn }
  if s.rp.skipFrame then s.modRp fun rp => { rp with skipFrame := false } else f s

/-- The request a management row stands for. -/
def rowRequest (r : ReqHead) (code : Byte) (args : List Byte) : Request :=
  ⟨r.source, r.tag, r.authority, code, args⟩

/-- The arrival of a request row's frame, addressed to the part's station (DEDUCED, log 8): forwarded in
transparent
operation (R173), removed as RETURNED where its source is the part itself (R180), handed to the MU
otherwise. `take` is what taking the request does. -/
def commandArrives (r : ReqHead) (code : Byte) (args : List Byte) (take : State → State) (s : State) :
    State :=
  receive r.engEn (fun s =>
    if s.transparent then
      s.modRp fun rp => rp.placeForward (requestFrame s.ownStation r code args)
    else if r.source = s.ownStation then s.countPort .returned
    else requestArrives (rowRequest r code args) take s) s

/-- An operator row. -/
def operatorRow (r : ReqHead) (code : Byte) (args : List Byte) (body : State → Answer) (s : State) :
    Host.Outcome State Fault Refusal :=
  live (commandArrives r code args (serveOperator (rowRequest r code args) body)) s

/-- An engineer row. -/
def engineerRow (r : ReqHead) (code : Byte) (args : List Byte) (body : State → Answer) (s : State) :
    Host.Outcome State Fault Refusal :=
  live (commandArrives r code args (serveEngineer (rowRequest r code args) body)) s

/-- Carries out `f` on the head a byte names; a number outside 0-15 is BAD_ARGUMENT. -/
def withHead (b : Byte) (f : HeadId → State → Answer) (s : State) : Answer :=
  match headOf b with
  | some h => f h s
  | none => refuse .badArgument s

/-- Carries out `f` on the generator a byte names; a byte that is neither A nor B is BAD_ARGUMENT. -/
def withGen (b : Byte) (f : GenId → State → Answer) (s : State) : Answer :=
  match genOf b with
  | some g => f g s
  | none => refuse .badArgument s

/-- Carries out `f` on the profile a byte names; a number outside 0-31 is BAD_ARGUMENT. -/
def withProfile (b : Byte) (f : ProfileId → State → Answer) (s : State) : Answer :=
  match profileOf b with
  | some p => f p s
  | none => refuse .badArgument s

end Sys2Proof.Machine
end

