-- ==== Sys2Proof/Machine/Rescue.lean ====
section
/-! DEFINITION. The Rescue Resolver: requests, the end of a rescue, and the resolution at a slot expiry
(chapter 5). -/

namespace Sys2Proof.Machine

/-- Ends the rescue of `g`'s in-service head, if there is one (R103): the place empties, the limit timer
stops, and in ROTATING mode the head moves to the end of the rotation order (R102). -/
def endRescue (g : GenId) (s : State) : State :=
  match (s.gen g).inService with
  | none => s
  | some h => s.modGen g fun x =>
    { x with inService := none, limitTimer := none,
             rotation := if s.mu.config.mode g = .rotating
               then x.rotation.filter (fun k => k != h) ++ [h] else x.rotation }

/-- Head `h` is in rescue service of some generator. -/
def State.inRescue (s : State) (h : HeadId) : Bool :=
  s.gens.a.inService == some h || s.gens.b.inService == some h

/-- The request of `h` becomes not pending (R97). -/
def withdraw (h : HeadId) (s : State) : State := s.modHead h fun x => { x with rescueReq := false }

/-- Ends the rescue of `h` in whichever generator's place it stands. -/
def endRescueOf (h : HeadId) (s : State) : State :=
  let s := if s.gens.a.inService = some h then endRescue .a s else s
  if s.gens.b.inService = some h then endRescue .b s else s

/-- What leaving the SOAK, suspension and joint end do (R105, R35 step 4, R40): the request is withdrawn
and any service of the head ends. -/
def dropRescue (h : HeadId) (s : State) : State := endRescueOf h (withdraw h s)

/-- A rescue request is raised (R97): pending at once, and counted where the head is masked. -/
def raiseRequest (h : HeadId) (s : State) : State :=
  let s1 := s.modHead h fun x => { x with rescueReq := true }
  if (s.head h).cfg.masked then s1.countDev h .rescueMasked else s1

/-- A candidate of `g` (R98): bound to it, pending and unmasked. -/
def State.candidate (s : State) (g : GenId) (h : HeadId) : Bool :=
  (s.head h).cfg.binding == some g && (s.head h).rescueReq && !(s.head h).cfg.masked

/-- The better of two candidates in FIXED mode, the first of which has the lower number (R99). -/
def betterFixed (s : State) (best : Option HeadId) (h : HeadId) : Option HeadId :=
  match best with
  | none => some h
  | some k => if (s.head h).cfg.priority < (s.head k).cfg.priority then some h else some k

/-- The winner in FIXED mode: lowest priority value, then lowest head number (R99). -/
def State.winnerFixed (s : State) (g : GenId) : Option HeadId :=
  (allHeads.filter (s.candidate g)).foldl (betterFixed s) none

/-- The winner in ROTATING mode: the candidate first in the rotation order (R101). -/
def State.winnerRotating (s : State) (g : GenId) : Option HeadId :=
  (s.gen g).rotation.find? (s.candidate g)

/-- Grants head `h` on generator `g` (R98). -/
def grantRescue (g : GenId) (h : HeadId) (s : State) : State :=
  let s := s.modHead h fun x =>
    { x with rescueReq := false, ctx := { x.ctx with rescueCount := count16 x.ctx.rescueCount } }
  let s := s.modGen g fun x =>
    { x with inService := some h, limitTimer := some s.mu.config.rescueLimit }
  s.countDev h .rescueGranted

/-- The winner `w` preempts the in-service head `k` on `g` (R100): the timer stops, `k` leaves the place
with its request pending again, and `w` is granted. -/
def preempt (g : GenId) (k w : HeadId) (s : State) : State :=
  let s := s.modGen g fun x => { x with inService := none, limitTimer := none }
  let s := s.modHead k fun x => { x with rescueReq := true }
  grantRescue g w s

/-- The resolution of one generator at a slot expiry (R98, R99, R101). -/
def resolveRescue (g : GenId) (s : State) : State :=
  match s.mu.config.mode g with
  | .fixed =>
    match s.winnerFixed g, (s.gen g).inService with
    | none, _ => s
    | some w, none => grantRescue g w s
    | some w, some k =>
      if (s.head w).cfg.priority < (s.head k).cfg.priority then preempt g k w s else s
  | .rotating =>
    match s.winnerRotating g, (s.gen g).inService with
    | some w, none => grantRescue g w s
    | _, _ => s

end Sys2Proof.Machine
end

