-- ==== Sys2Proof/Machine/Slots.lean ====
section
/-! DEFINITION. The Slot Scheduler at a slot expiry (chapter 4): pointer advance and phase loads, the selection
of a head for each generator, and the DRIVE frames. -/

namespace Sys2Proof.Machine

/-! ### The slot timer and the phase tables -/

/-- Step 1 of R74: the timer restarts for the slot period in force at this expiry and the slot number
increases (R73; DEDUCED, log 10). -/
def restartSlot (s : State) : State :=
  { s with slots := { s.slots with timer := s.mu.config.slotPeriod,
                                   period := s.mu.config.slotPeriod,
                                   number := s.slots.number + 1 } }

/-- The phase pointer after an advance over a table of `len` entries (R76). -/
def advancePointer (len : Nat) (p : Option Nat) : Option Nat :=
  if len = 0 then none
  else match p with
    | none => some 0
    | some i => if i + 1 < len then some (i + 1) else some 0

/-- A generator whose pending load completes (R80 steps 1 to 3). -/
def Generator.completeLoad (x : Generator) : Generator :=
  { x with active := x.staged, pointer := if x.staged.length = 0 then none else some 0,
           loadPending := false, stagedDiffers := false }

/-- Step 2 of R74 for one generator: the pointer advances, and a pending load completes where it reaches
index 0 or the active table is empty (R80). -/
def advancePhase (g : GenId) (s : State) : State :=
  let x := s.gen g
  let p := advancePointer x.active.length x.pointer
  if x.loadPending && (p == some 0 || x.active.length == 0) then
    (s.modGen g fun x => x.completeLoad).noticePhaseLoaded g
  else s.modGen g fun x => { x with pointer := p }

/-- The entry at an index of a table below its length, if it names a head (R75). -/
def PhaseTable.at (t : PhaseTable) (i : Nat) : Option HeadId :=
  if i < t.length then (t.entries[i]?).join else none

/-- The head a slot's phase entry names (R76). -/
def Generator.entry (x : Generator) : Option HeadId := x.pointer.bind x.active.at

/-! ### Selection -/

/-- Two heads form an exclusion pair (R86). -/
def State.paired (s : State) (h k : HeadId) : Bool :=
  s.slots.exclusions.any fun p => (p.1 == h && p.2 == k) || (p.1 == k && p.2 == h)

/-- Head `h` is eligible for generator `g` (R82); `other` is the head A serves in the same slot, for B's
selection (R87). -/
def State.eligible (s : State) (g : GenId) (other : Option HeadId) (h : HeadId) : Bool :=
  let x := s.head h
  (x.cfg.binding == some g)
    && (x.ctx.state == .running)
    && (match s.segment h with
        | some seg => seg.heats
        | none => false)
    && decide (1 ≤ x.hcu.demand)
    && decide (1 ≤ x.cfg.powerLimit)
    && s.interlocksOk h
    && ((s.gen g).state == .ready)
    && decide (1 ≤ (s.gen g).budget)
    && (match other with
        | some k => !s.paired k h
        | none => true)

/-- The kind of a slot that feeds a head (R83-R85). -/
inductive SlotKind where
  | rescue | phase | borrowed
  deriving DecidableEq, Repr

/-- The entries of a table after the pointer, in table order, wrapping and stopping before the pointer
(R85). -/
def PhaseTable.after (t : PhaseTable) (p : Nat) : List (Option HeadId) :=
  (List.range (t.length - 1)).map fun i => t.at ((p + 1 + i) % t.length)

/-- The head a slot is lent to (R85). -/
def State.borrower (s : State) (g : GenId) (other : Option HeadId) : Option HeadId :=
  match (s.gen g).pointer with
  | none => none
  | some p => (((s.gen g).active.after p).filterMap id).find? (s.eligible g other)

/-- The rescue head takes the slot from the phase entry (R83): it is eligible, and the entry is not
eligible or is in a RAMP. -/
def State.rescueTakes (s : State) (g : GenId) (other : Option HeadId) (r : HeadId) : Bool :=
  s.eligible g other r && (match (s.gen g).entry with
    | none => true
    | some e => !s.eligible g other e || (match s.segment e with
        | some seg => !seg.isSoak
        | none => true))

/-- The head served after the rescue stage has passed: the phase entry (R84), else a borrower (R85). -/
def State.servePhase (s : State) (g : GenId) (other : Option HeadId) : Option (HeadId × SlotKind) :=
  match (s.gen g).entry with
  | some e =>
    if s.eligible g other e then some (e, .phase)
    else (s.borrower g other).map fun h => (h, .borrowed)
  | none => (s.borrower g other).map fun h => (h, .borrowed)

/-- The head generator `g` serves in the slot, and the slot's kind (R83-R85). -/
def State.select (s : State) (g : GenId) (other : Option HeadId) : Option (HeadId × SlotKind) :=
  match (s.gen g).inService with
  | some r => if s.rescueTakes g other r then some (r, .rescue) else s.servePhase g other
  | none => s.servePhase g other

/-- A borrowed slot counts BORROWED for the head (R85). -/
def countBorrowed (sel : Option (HeadId × SlotKind)) (s : State) : State :=
  match sel with
  | some (h, .borrowed) => s.countDev h .borrowed
  | _ => s

/-! ### DRIVE frames (R88-R91) -/

/-- The setpoint of a POWER frame (R89). -/
def State.setpoint (s : State) (g : GenId) (h : HeadId) : Nat :=
  min (s.head h).hcu.demand (min (s.head h).cfg.powerLimit (s.gen g).budget)

/-- The budget alone sets the setpoint (R90). -/
def State.budgetLimits (s : State) (g : GenId) (h : HeadId) : Bool :=
  decide ((s.gen g).budget < (s.head h).hcu.demand)
    && decide ((s.gen g).budget < (s.head h).cfg.powerLimit)

/-- The last four of a history and a new entry (R91). -/
def appendHistory (hist : List DriveEntry) (e : DriveEntry) : List DriveEntry :=
  let l := hist ++ [e]
  l.drop (l.length - 4)

/-- The further effects of building a POWER frame (R90). -/
def powerEffects (g : GenId) (h : HeadId) (s : State) : State :=
  let sp := s.setpoint g h
  let s1 := if s.budgetLimits g h then
      (s.modCtx h fun c => { c with derated := true }).countDev h .derated else s
  let s2 := if (s.head h).cfg.couplingPower ≤ sp then s1.modCtx h fun c => { c with served := true }
    else s1
  s2.modGen g fun x =>
    { x with history := appendHistory x.history ⟨s.slots.number, h, (s.head h).ctx.serial, sp⟩ }

/-- The payload of a DRIVE frame (R179): slot number, command, head, setpoint. -/
def drivePayload (slot cmd : Byte) (h : Option HeadId) (sp : Nat) : List Byte :=
  slot :: cmd :: headCode h :: le16 sp

/-- The DRIVE payload for a generator's state and the head served (R88). -/
def State.driveFor (s : State) (g : GenId) (served : Option HeadId) : List Byte :=
  match (s.gen g).state, served with
  | .ready, some h => drivePayload s.slots.number 3 (some h) (s.setpoint g h)
  | .ready, none => drivePayload s.slots.number 2 none 0
  | .waking, _ => drivePayload s.slots.number 1 none 0
  | _, _ => drivePayload s.slots.number 0 none 0

/-- Step 5 of R74 for one generator: its DRIVE frame is built and placed, where it has a station (R88). -/
def buildDrive (g : GenId) (served : Option HeadId) (s : State) : State :=
  if s.mu.config.station g = 0 then s
  else
    let frame : TxFrame :=
      ⟨mkFrame (byte (s.mu.config.station g)) s.ownStation kindDrive (s.driveFor g served), false⟩
    let s1 := match (s.gen g).state, served with
      | .ready, some h => powerEffects g h s
      | _, _ => s
    s1.modRp fun rp => rp.placeDrive g frame

/-! ### The expiry -/

/-- Steps 3 and 4 of R74 for one generator: resolution, then selection. -/
def serveGenerator (g : GenId) (other : Option HeadId) (s : State) :
    State × Option HeadId :=
  let s := resolveRescue g s
  let sel := s.select g other
  (countBorrowed sel s, sel.map Prod.fst)

/-- The work of a slot expiry, in the order of R74. -/
def slotWork (s : State) : State :=
  let s := advancePhase .b (advancePhase .a (restartSlot s))
  let a := serveGenerator .a none s
  let b := serveGenerator .b a.2 a.1
  buildDrive .b b.2 (buildDrive .a a.2 b.1)

/-- The slot timer expires (R73, R74). -/
def slotExpiry (s : State) : State := if s.slots.timer = 0 then slotWork s else s

/-- The SLOT_EXPIRY row. -/
def execSlotExpiry (s : State) : Host.Outcome State Fault Refusal := live slotExpiry s

end Sys2Proof.Machine
end

