-- ==== Sys2Proof/Machine/Phases.lean ====
section
/-! DEFINITION. The commands of the phase tables and the exclusion list: WRITE PHASES, LOAD PHASES, WRITE
EXCLUSIONS and READ PHASES (chapter 4). -/

namespace Sys2Proof.Machine

/-! ### WRITE PHASES (R77, R78) -/

/-- A staged table with entries written from `start`, the new length, and EMPTY beyond it (R78). -/
def PhaseTable.written (t : PhaseTable) (start : Nat) (es : List (Option HeadId)) (len : Nat) :
    PhaseTable :=
  { entries := Vector.ofFn fun i =>
      if len ≤ i.val then none
      else if start ≤ i.val then
        match es[i.val - start]? with
        | some e => e
        | none => t.entries[i]
      else t.entries[i],
    length := len }

/-- WRITE PHASES (R77, R78). -/
def doWritePhases (gen start : Byte) (entries : List Byte) (length : Byte) (s : State) : Answer :=
  withGen gen (fun g s =>
    if 32 < length.toNat ∨ length.toNat < start.toNat + entries.length then refuse .badArgument s
    else match entries.mapM entryOf with
      | none => refuse .badArgument s
      | some es =>
        if (s.gen g).loadPending then refuse .busy s
        else accept [length] (s.modGen g fun x =>
          { x with staged := x.staged.written start.toNat es length.toNat, stagedDiffers := true })) s

/-! ### LOAD PHASES (R79) -/

/-- Every entry of the staged table below its length is EMPTY or names a head bound to `g` (R79). -/
def State.stagedValid (s : State) (g : GenId) : Bool :=
  (List.range (s.gen g).staged.length).all fun i =>
    match (s.gen g).staged.at i with
    | none => true
    | some h => (s.head h).cfg.binding == some g

/-- LOAD PHASES (R79). -/
def doLoadPhases (gen : Byte) (s : State) : Answer :=
  withGen gen (fun g s =>
    if (s.gen g).loadPending then refuse .busy s
    else if !s.stagedValid g then refuse .badTable s
    else accept [byte (s.gen g).staged.length] (s.modGen g fun x => { x with loadPending := true })) s

/-! ### WRITE EXCLUSIONS (R86) -/

/-- The same unordered pair. -/
def samePair (p q : HeadId × HeadId) : Bool :=
  (p.1 == q.1 && p.2 == q.2) || (p.1 == q.2 && p.2 == q.1)

/-- A pair added to a list of distinct pairs, in the order given (DESIGN CHOICE, log 20). -/
def addPair (acc : List (HeadId × HeadId)) (p : HeadId × HeadId) : List (HeadId × HeadId) :=
  if acc.any (samePair p) then acc else acc ++ [p]

/-- The distinct pairs of a list, each once (R86). -/
def distinctPairs (ps : List (HeadId × HeadId)) : List (HeadId × HeadId) := ps.foldl addPair []

/-- The pair of different heads that two bytes name. -/
def pairOf (p : Byte × Byte) : Option (HeadId × HeadId) :=
  match headOf p.1, headOf p.2 with
  | some h, some k => if h = k then none else some (h, k)
  | _, _ => none

/-- WRITE EXCLUSIONS (R86). -/
def doWriteExclusions (pairs : List (Byte × Byte)) (s : State) : Answer :=
  match pairs.mapM pairOf with
  | none => refuse .badArgument s
  | some ps =>
    let l := distinctPairs ps
    if 16 < l.length then refuse .badArgument s
    else accept [byte l.length] { s with slots := { s.slots with exclusions := l } }

/-! ### READ PHASES (R93) -/

/-- A table as bytes: its length and that many entries, index 0 upward. -/
def PhaseTable.bytes (t : PhaseTable) : List Byte :=
  byte t.length :: (List.range t.length).map fun i => headCode (t.at i)

/-- A list of pairs as bytes. -/
def exclusionBytes (ps : List (HeadId × HeadId)) : List Byte :=
  byte ps.length :: ps.flatMap fun p => [headCode (some p.1), headCode (some p.2)]

/-- A drive history as bytes, oldest entry first. -/
def historyBytes (l : List DriveEntry) : List Byte :=
  byte l.length :: l.flatMap fun e =>
    [e.slot, headCode (some e.head)] ++ enc32 e.serial ++ le16 e.setpoint

/-- READ PHASES (R93): table choice 0 active, 1 staged. -/
def doReadPhases (gen table : Byte) (s : State) : Answer :=
  withGen gen (fun g s =>
    let x := s.gen g
    let rest := [flagByte x.stagedDiffers, flagByte x.loadPending, s.slots.number]
      ++ le16 s.slots.period ++ exclusionBytes s.slots.exclusions ++ historyBytes x.history
    if table = 0 then
      accept (x.active.bytes ++ optBytes (fun n => [byte n]) x.pointer ++ rest) s
    else if table = 1 then accept (x.staged.bytes ++ rest) s
    else refuse .badArgument s) s

/-! ### The rows -/

/-- The WRITE_PHASES row. -/
def execWritePhases (r : ReqHead) (gen start : Byte) (entries : List Byte) (length : Byte) (s : State) :
    Host.Outcome State Fault Refusal :=
  engineerRow r 36 (encWritePhases gen start entries length) (doWritePhases gen start entries length) s

/-- The LOAD_PHASES row. -/
def execLoadPhases (r : ReqHead) (gen : Byte) (s : State) : Host.Outcome State Fault Refusal :=
  engineerRow r 37 [gen] (doLoadPhases gen) s

/-- The WRITE_EXCLUSIONS row. -/
def execWriteExclusions (r : ReqHead) (pairs : List (Byte × Byte)) (s : State) :
    Host.Outcome State Fault Refusal :=
  engineerRow r 39 (encPairs pairs) (doWriteExclusions pairs) s

/-- The READ_PHASES row. -/
def execReadPhases (r : ReqHead) (gen table : Byte) (s : State) :
    Host.Outcome State Fault Refusal :=
  operatorRow r 5 [gen, table] (doReadPhases gen table) s

end Sys2Proof.Machine
end

