-- ==== Sys2Proof/Machine/Results.lean ====
section
/-! DEFINITION. The Result Queue's side of a joint end: the evaluation of the acceptance criteria (R165) and the
result record (R162). -/

namespace Sys2Proof.Machine

/-- A present minimum fails on a smaller figure. -/
def belowMin (figure : Nat) : Option Nat → Bool
  | none => false
  | some m => figure < m

/-- A present maximum fails on a greater figure. -/
def aboveMax (figure : Nat) : Option Nat → Bool
  | none => false
  | some m => m < figure

/-- Joint energy in whole joules, rounded down (R10). -/
def HeadContext.joules (c : HeadContext) : Nat := c.energy / 100

/-- A present criterion fails on a joint's figures and flags (R165). -/
def Criterion.fails (k : Criterion) (cr : Criteria) (c : HeadContext) : Bool :=
  match k with
  | .minPeak => belowMin c.peak cr.minPeak
  | .maxPeak => aboveMax c.peak cr.maxPeak
  | .minFlow => belowMin c.timeAboveFlow cr.minFlow
  | .maxFlow => aboveMax c.timeAboveFlow cr.maxFlow
  | .minEnergy => belowMin c.joules cr.minEnergy
  | .maxEnergy => aboveMax c.joules cr.maxEnergy
  | .maxRescues => aboveMax c.rescueCount cr.maxRescues
  | .fullCool => cr.fullCool && (c.earlyRelease || c.coolTimeout)

/-- The criteria in the order they are checked (R165). -/
def Criterion.all : List Criterion :=
  [.minPeak, .maxPeak, .minFlow, .maxFlow, .minEnergy, .maxEnergy, .maxRescues, .fullCool]

/-- The failed criteria, in the order of R165. -/
def failedCriteria (cr : Criteria) (c : HeadContext) : List Criterion :=
  Criterion.all.filter fun k => k.fails cr c

/-- The result record of the joint of head `h`, as its context stands (R162, R163). -/
def State.resultRecord (s : State) (h : HeadId) (o : JointOutcome) (failed : Option (List Criterion))
    (kind : Option FaultKind) : ResultRecord :=
  let c := (s.head h).ctx
  { serial := c.serial, head := h, profile := c.profile.getD 0, revision := c.revision, outcome := o,
    failed := failed, kind := kind, peak := c.peak, timeAboveFlow := c.timeAboveFlow,
    joules := c.joules, duration := s.timebase - c.jointStart, segsDone := c.segsDone,
    rescueCount := c.rescueCount, resumed := c.resumed, derated := c.derated,
    earlyRelease := c.earlyRelease, coolTimeout := c.coolTimeout }

end Sys2Proof.Machine
end

