-- ==== Sys2Proof/Machine/Joints.lean ====
section
/-! DEFINITION. The life of a joint: its end (R35), suspension (R39, R40), the taking of a fault (R144, R145),
segment entry and exit (R29, R30, R65, R135), and the entry into the joint (R27). -/

namespace Sys2Proof.Machine

/-! ### Joint end -/

/-- The idle timer of a READY generator starts when no head holds it any more (R116). -/
def startIdleIfUnheld (g : GenId) (s : State) : State :=
  if (s.gen g).state = .ready ∧ s.genHeld g = false then
    s.modGen g fun x => { x with idleTimer := some s.mu.config.idleDelay }
  else s

/-- The Generator Monitor sees one fewer head holding the generator `h` is bound to (R35, R116). -/
def releaseGenerator (h : HeadId) (s : State) : State :=
  match (s.head h).cfg.binding with
  | none => s
  | some g => startIdleIfUnheld g s

/-- Ends the joint of head `h` (R35 steps 2 to 7, and the idle timer): outcome, failed criteria and
fault kind as given. The state after is FAULTED for outcome FAULT and IDLE otherwise. -/
def finishJoint (o : JointOutcome) (failed : Option (List Criterion)) (kind : Option FaultKind)
    (h : HeadId) (s : State) : State :=
  let s := { s with results := s.results ++ [s.resultRecord h o failed kind] }
  let s := s.modCtx h fun c => { c with reservation := false }
  let s := dropRescue h s
  let s := s.modHead h fun x =>
    { x with ctx := { x.ctx with segTimer := none, sampleTimer := none, windowTimer := none,
                                 suspendRec := none, lastOutcome := o,
                                 state := if o = .fault then .faulted else .idle },
             hcu := { x.hcu with demand := 0 } }
  releaseGenerator h (s.noticeJointEnd h o kind)

/-- The normal end of a joint (R35 step 1, R164): ACCEPT, or REJECT with the failed criteria. -/
def finishNormally (h : HeadId) (s : State) : State :=
  let failed := match s.recipe h with
    | none => []
    | some r => failedCriteria r.criteria (s.head h).ctx
  if failed = [] then finishJoint .accept none none h s
  else finishJoint .reject (some failed) none h s

/-! ### Suspension -/

/-- The elapsed time in the segment that records take (R39, R143): RUNNING, the timebase less the segment
start; WAIT_GEN, the entry offset; SUSPENDED, that of the suspend record. -/
def State.elapsed (s : State) (h : HeadId) : Nat :=
  let c := (s.head h).ctx
  match c.state with
  | .running => s.since c.segStart
  | .suspended => (c.suspendRec.map SuspendRecord.elapsed).getD 0
  | _ => c.entryOffset

/-- The suspend record of head `h` as it stands (R39). -/
def State.suspendRecord (s : State) (h : HeadId) (cause : SuspendCause) : SuspendRecord :=
  let x := s.head h
  { cause := cause, segIndex := x.ctx.segIndex, elapsed := s.elapsed h,
    rampOrigin := x.ctx.rampOrigin, setpoint := x.hcu.setpoint, filtered := x.hcu.filtered,
    integrator := x.hcu.integrator, energy := x.ctx.energy, timeAboveFlow := x.ctx.timeAboveFlow,
    peak := x.ctx.peak, rescueCount := x.ctx.rescueCount, inRescue := s.inRescue h,
    derated := x.ctx.derated, time := s.timebase }

/-- Head `h` captures its suspend record and enters SUSPENDED (R39, R40). -/
def suspend (cause : SuspendCause) (h : HeadId) (s : State) : State :=
  let rec_ := s.suspendRecord h cause
  let s := s.modHead h fun x =>
    { x with ctx := { x.ctx with suspendRec := some rec_, state := .suspended, segTimer := none,
                                 sampleTimer := none,
                                 windowTimer := some s.mu.config.resumeWindow },
             hcu := { x.hcu with demand := 0 } }
  dropRescue h s

/-! ### Taking a fault -/

/-- The action of a fault (R145). A head that holds no joint is never asked (R144 step 2). -/
def State.faultAction (s : State) (h : HeadId) (k : FaultKind) : FaultAction :=
  let c := (s.head h).ctx
  if c.state = .suspended then
    if k = .coolantLost then .recorded
    else if s.severity k = .abort then .abort else .recorded
  else if s.severity k = .abort then .abort
  else if c.suspendedOnce then .escalated else .suspend

/-- The head's state after an action (R145). -/
def FaultAction.after (act : FaultAction) (before : HeadState) : HeadState :=
  match act with
  | .abort | .escalated => .faulted
  | .suspend => .suspended
  | .recorded => before

/-- A kind added to a fault status: kept in the order of R139, without repeats (R142). -/
def addKind (k : FaultKind) (st : List FaultKind) : List FaultKind :=
  FaultKind.all.filter fun x => x = k ∨ x ∈ st

/-- The capture record of a fault as the head stands (R143), with the joint's peak (R57; DESIGN CHOICE,
log 33). -/
def State.captureOf (s : State) (h : HeadId) (k : FaultKind) (act : FaultAction) : Capture :=
  let x := s.head h
  { kind := k, action := act, serial := x.ctx.serial, headState := x.ctx.state,
    segIndex := x.ctx.segIndex, elapsed := s.elapsed h,
    sample := x.hcu.lastSample.map fun p => ⟨p.seq, p.temp, p.current, p.quality⟩,
    filtered := x.hcu.filtered, setpoint := x.hcu.setpoint, demand := x.hcu.demand,
    peak := x.ctx.peak, time := s.timebase }

/-- Step 1 of R144: the kind enters the head's fault status. -/
def recordKind (h : HeadId) (k : FaultKind) (s : State) : State :=
  s.modHead h fun x => { x with fr := { x.fr with status := addKind k x.fr.status } }

/-- Step 3 of R144: the pointer and the capture record. -/
def takeCapture (h : HeadId) (k : FaultKind) (act : FaultAction) (s : State) : State :=
  s.modHead h fun x =>
    { x with fr := { x.fr with pointer := some k, capture := some (s.captureOf h k act) } }

/-- Step 5 of R144: the action of R145 on the head. -/
def applyAction (h : HeadId) (k : FaultKind) (act : FaultAction) (s : State) : State :=
  match act with
  | .abort | .escalated => finishJoint .fault none (some k) h s
  | .suspend => suspend (.fault k) h (s.modCtx h fun c => { c with suspendedOnce := true })
  | .recorded => s

/-- Takes fault `k` against head `h`, whole (R144). -/
def takeFault (h : HeadId) (k : FaultKind) (s0 : State) : State :=
  let s := recordKind h k s0
  if s.holds h then
    let act := s.faultAction h k
    let captured := !s.masked k && (s.head h).fr.pointer.isNone
    let s1 := if captured then takeCapture h k act s else s
    let s2 := if s.masked k then s1
      else s1.noticeHeadFault h k act captured (act.after (s.head h).ctx.state)
    applyAction h k act s2
  else s

/-! ### Segments -/

/-- The setpoint of a RAMP at an elapsed time (R61). -/
def rampSetpoint (target rate origin elapsed : Nat) : Nat :=
  if origin < target then min target (origin + rate * elapsed / 1000) else target

/-- The ramp origin a RAMP is entered with (R29 step 4): the restored one on the entry a continued resume
makes, the current filtered temperature otherwise. -/
def Head.entryOrigin (x : Head) : Option Nat :=
  if x.ctx.contEntry then x.ctx.rampOrigin else x.hcu.filtered

/-- The Heat Control Unit's values at a segment entry (R65); `origin` is the ramp origin after it and
`offset` the entry offset. -/
def Hcu.atEntry (u : Hcu) (seg : Segment) (origin : Option Nat) (offset : Nat) : Hcu :=
  match seg with
  | .ramp t r _ _ c =>
    { u with integrator := min u.integrator c, demand := min u.demand c,
             setpoint := match origin with
               | some o => rampSetpoint t r o offset
               | none => u.setpoint }
  | .soak t _ c =>
    { u with integrator := min u.integrator c, demand := min u.demand c, setpoint := t }
  | .cool _ _ => { u with integrator := 0, demand := 0, setpoint := 0 }

/-- Steps 1 to 6 of R29 with R65, for the segment `seg`: the head is RUNNING in it. -/
def Head.enter (x : Head) (seg : Segment) (now : Word32) (threeSlots : Nat) : Head :=
  let off := x.ctx.entryOffset
  let origin := match seg with
    | .ramp .. => x.entryOrigin
    | _ => x.ctx.rampOrigin
  { x with
    ctx := { x.ctx with state := .running, segStart := now - BitVec.ofNat 32 off,
                        segTimer := some (max 1 (seg.length - off)),
                        sampleTimer := some threeSlots, rampOrigin := origin,
                        entryOffset := 0, contEntry := false },
    hcu := x.hcu.atEntry seg origin off }

/-- The interlock test at the entry into a RAMP or SOAK (R135). -/
def entryTest (h : HeadId) (s : State) : State :=
  if s.latched h then takeFault h .coolantLost s
  else if s.verdict h then s
  else takeFault h .interlockLost s

/-- Head `h` enters RUNNING in the segment its segment index names (R29, R65, R135). Entry into a segment
other than a SOAK ends any rescue of the head. -/
def enterSegment (h : HeadId) (s : State) : State :=
  match s.segment h with
  | none => s
  | some seg =>
    let s1 := s.modHead h fun x => x.enter seg s.timebase s.threeSlots
    let s2 := if seg.isSoak then s1 else dropRescue h s1
    if seg.heats then entryTest h s2 else s2

/-- The current segment of head `h` exits (R30): the segment timer stops, segments completed increases,
the head leaves the segment (R105), and enters the next one or ends its joint normally. -/
def exitSegment (h : HeadId) (s : State) : State :=
  let s1 := s.modCtx h fun c => { c with segTimer := none, segsDone := c.segsDone + 1 }
  let s2 := dropRescue h s1
  let count := match s.recipe h with
    | none => 0
    | some r => r.segments.length
  if (s.head h).ctx.segIndex + 1 < count then
    enterSegment h (s2.modCtx h fun c => { c with segIndex := c.segIndex + 1 })
  else finishNormally h s2

/-! ### Entering the joint -/

/-- A STANDBY generator is woken (R112). -/
def wakeGenerator (g : GenId) (s : State) : State :=
  (s.modGen g fun x => { x with state := .waking, wakeTimer := some s.mu.config.wakeTimeout })
    |>.noticeGenState g .standby

/-- Head `h` enters its joint according to the bound generator's state (R27). -/
def enterJoint (h : HeadId) (s : State) : State :=
  let wait := s.modCtx h fun c => { c with state := .waitGen }
  match (s.head h).cfg.binding with
  | none => wait
  | some g =>
    match (s.gen g).state with
    | .ready => enterSegment h (s.modGen g fun x => { x with idleTimer := none })
    | .waking | .off => wait
    | .standby => wakeGenerator g wait
    | .faulted => takeFault h .generatorFault wait

end Sys2Proof.Machine
end

