-- ==== Sys2Proof/Machine/Interlocks.lean ====
section
/-! DEFINITION. The Interlock Monitor (chapter 7): debounce, INTERLOCK frames, the frame timer, coolant and
interlock losses, polarity changes. -/

namespace Sys2Proof.Machine

/-! ### Debounce (R128) -/

/-- An input after a frame judges it (R128). -/
def Input.judge (i : Input) (ok : Bool) : Input :=
  if ok then
    if i.satisfied then { i with mark := false }
    else if i.mark then { i with satisfied := true, mark := false }
    else { i with mark := true }
  else { i with satisfied := false, mark := false }

/-- An input made UNSATISFIED with its mark clear; the raw state stays (R129, R137). -/
def Input.drop (i : Input) : Input := { i with satisfied := false, mark := false }

/-- How a head input judges a raw state (R127 step 3). -/
def polarityJudges (p : Polarity) (raw : Bool) : Bool :=
  match p with
  | .activeOn => raw
  | .activeOff => !raw

/-- An input after a frame shows it the raw state `raw` under polarity `p`. -/
def Input.show (i : Input) (p : Polarity) (raw : Bool) : Input :=
  { i with raw := some raw }.judge (polarityJudges p raw)

/-- The three inputs of a head made UNSATISFIED. -/
def HeadInputs.drop (i : HeadInputs) : HeadInputs := ⟨i.part.drop, i.clamp.drop, i.coil.drop⟩

/-! ### Losses (R131-R134) -/

/-- The early release flag is set and EARLY_RELEASE counted (R132, R134). -/
def releaseEarly (h : HeadId) (s : State) : State :=
  (s.modCtx h fun c => { c with earlyRelease := true }).countDev h .earlyRelease

/-- A head at an interlock loss, by its state (R132). `released` says that the same event's coolant loss
has already marked the head early released. -/
def interlockLoss (released : Bool) (h : HeadId) (s : State) : State :=
  match (s.head h).ctx.state with
  | .running =>
    if s.inCool h then (if released then s else releaseEarly h s) else takeFault h .interlockLost s
  | .waitGen | .suspended => takeFault h .interlockLost s
  | .idle | .faulted | .disabled => s

/-- A head at a coolant loss of its group, by its state (R134). COOLANT_LOST against a SUSPENDED head is
recorded only, by R145. -/
def coolantLossHead (s : State) (h : HeadId) : State :=
  match (s.head h).ctx.state with
  | .running => if s.inCool h then releaseEarly h s else takeFault h .coolantLost s
  | .waitGen | .suspended => takeFault h .coolantLost s
  | .idle | .faulted | .disabled => s

/-- The heads of a group in ascending number. -/
def headsOfGroup (g : GroupId) : List HeadId := allHeads.filter fun h => groupOf h = g

/-- A coolant loss of a group (R133): the latch, the notice where it was clear, the heads. -/
def coolantLoss (g : GroupId) (s : State) : State :=
  let wasClear := !(s.group g).latch
  let s := s.modGroup g fun x => { x with latch := true }
  let s := if wasClear then s.noticeCoolantLatch g else s
  (headsOfGroup g).foldl coolantLossHead s

/-- Whether an event that found the group as `before` and leaves or makes its coolant unsatisfied is a
coolant loss (R133): it was SATISFIED or its latch was clear. -/
def Group.losesCoolant (before : Group) : Bool := before.flow.satisfied || !before.latch

/-- Acts on the coolant losses and then the interlock losses of one event (R127 steps 5 and 6, R129 steps 4
and 5). `s0` is the part before the event, `lost g` whether the event takes the group's coolant for
unsatisfied, and the state given already holds the new inputs. -/
def actOnLosses (s0 : State) (lost : GroupId → Bool) (s : State) : State :=
  let loses := fun g => lost g && (s0.group g).losesCoolant
  let s := allGroups.foldl (fun s g => if loses g then coolantLoss g s else s) s
  allHeads.foldl (fun s h =>
    if s0.verdict h && !s.verdict h then interlockLoss (loses (groupOf h)) h s else s) s

/-! ### INTERLOCK frames (R127) -/

/-- The raw states an INTERLOCK frame carries (R178). -/
structure InterlockFrame where
  part  : Word16
  clamp : Word16
  coil  : Word16
  flow  : Byte
  deriving DecidableEq, Repr

/-- Reads an INTERLOCK payload (R178). -/
def readInterlock (p : List Byte) : Option InterlockFrame :=
  match p with
  | [a0, a1, b0, b1, c0, c1, f] => some ⟨ofLe16 a0 a1, ofLe16 b0 b1, ofLe16 c0 c1, f⟩
  | _ => none

/-- A head's inputs after a frame (R127 steps 2 to 4). -/
def Head.showInputs (x : Head) (m : InterlockFrame) (h : HeadId) : Head :=
  { x with inputs :=
      { part := x.inputs.part.show x.cfg.polPart (m.part.getLsbD h.val),
        clamp := x.inputs.clamp.show x.cfg.polClamp (m.clamp.getLsbD h.val),
        coil := x.inputs.coil.show x.cfg.polCoil (m.coil.getLsbD h.val) } }

/-- Every input after a frame; a coolant input has no polarity, raw on is satisfied (R126). -/
def showFrame (m : InterlockFrame) (s : State) : State :=
  let s := s.modAllHeads fun h x => x.showInputs m h
  { s with interlocks := { s.interlocks with
      groups := Vector.ofFn fun g => { s.interlocks.groups[g] with
        flow := s.interlocks.groups[g].flow.show .activeOn (m.flow.getLsbD g.val) } } }

/-- An accepted INTERLOCK frame, processed whole (R127). -/
def takeInterlockFrame (m : InterlockFrame) (s0 : State) : State :=
  let s := { s0 with interlocks := { s0.interlocks with
    frameTimer := some s0.mu.config.interlockTimeout } }
  actOnLosses s0 (fun g => !m.flow.getLsbD g.val) (showFrame m s)

/-- An INTERLOCK payload handed to the Interlock Monitor; its length has been checked (R180). -/
def takeInterlock (payload : List Byte) (s : State) : State :=
  match readInterlock payload with
  | none => s
  | some m => takeInterlockFrame m s

/-! ### The frame timer (R129) -/

/-- Every input UNSATISFIED with its mark clear. -/
def dropAllInputs (s : State) : State :=
  let s := s.modAllHeads fun _ x => { x with inputs := x.inputs.drop }
  { s with interlocks := { s.interlocks with
      groups := s.interlocks.groups.map fun x => { x with flow := x.flow.drop } } }

/-- The interlock frame timer expires (R129). -/
def interlockExpiry (s0 : State) : State :=
  if due s0.interlocks.frameTimer then
    let s := dropAllInputs s0
    let s := { s with interlocks := { s.interlocks with
      frameTimer := none, timeouts := count16 s.interlocks.timeouts } }
    actOnLosses s0 (fun _ => true) s
  else s0

/-- The INTERLOCK_FRAME_TIMER_EXPIRY row. -/
def execInterlockFrameTimerExpiry (s : State) : Host.Outcome State Fault Refusal :=
  live interlockExpiry s

end Sys2Proof.Machine
end

