-- ==== Sys2Proof/Machine/Heads.lean ====
section
/-! DEFINITION. The commands at a head: START, ABORT, SUSPEND HEAD, RESUME HEAD, CLEAR HEAD, CLEAR FAULTS,
WRITE HEAD CONFIG, DISABLE HEAD and ENABLE HEAD (chapters 2 and 8). -/

namespace Sys2Proof.Machine

/-! ### START (R25, R26, R27) -/

/-- Check 4 of R25: the profile a START may bind. -/
def State.startProfile (s : State) (h : HeadId) (prof : Byte) : Option ProfileId :=
  match profileOf prof, (s.head h).cfg.binding with
  | some p, some g =>
    if (s.profile p).recipe.isSome ∧ (s.gen g).state ≠ .off then some p else none
  | _, _ => none

/-- The head prepared for a new joint (R26 steps 1 to 7). -/
def Head.prepared (x : Head) (p : ProfileId) (revision : Word16) (serial now : Word32) : Head :=
  { x with
    ctx := { x.ctx with
      serial := serial, profile := some p, revision := revision, segIndex := 0, entryOffset := 0,
      rampOrigin := none, jointStart := now, peak := 0, timeAboveFlow := 0, energy := 0,
      rescueCount := 0, segsDone := 0, derated := false, earlyRelease := false, coolTimeout := false,
      resumed := false, suspendedOnce := false, reservation := true, suspendRec := none,
      served := false, couplingLow := 0, contEntry := false },
    hcu := { x.hcu with filtered := none, setpoint := 0, integrator := 0, demand := 0, seqRef := none,
                        prevTime := none } }

/-- An accepted START: the head is prepared and enters its joint (R26, R27). -/
def startJoint (h : HeadId) (p : ProfileId) (serial : Word32) (s : State) : State :=
  let s := s.modHead h fun x => x.prepared p (s.profile p).revision serial s.timebase
  enterJoint h (dropRescue h s)

/-- START (R25). The reply carries the head's state after the START and any fault it raises. -/
def doStart (head prof : Byte) (serial : Word32) (s : State) : Answer :=
  if s.mu.cold then refuse .notReady s
  else withHead head (fun h s =>
    if (s.head h).ctx.state ≠ .idle then refuse .badState s
    else match s.startProfile h prof with
      | none => refuse .badArgument s
      | some p =>
        if !s.interlocksOk h then refuse .interlock s
        else if 48 ≤ s.results.length + s.reservations then refuse .full s
        else
          let s' := startJoint h p serial s
          accept [(s'.head h).ctx.state.code] s') s

/-! ### ABORT and SUSPEND HEAD (R37, R38) -/

/-- ABORT (R37). -/
def doAbort (head : Byte) (s : State) : Answer :=
  withHead head (fun h s =>
    if s.holds h then accept [JointOutcome.aborted.code] (finishJoint .aborted none none h s)
    else refuse .badState s) s

/-- SUSPEND HEAD (R38). -/
def doSuspendHead (head : Byte) (s : State) : Answer :=
  withHead head (fun h s =>
    if (s.head h).ctx.state = .running ∨ (s.head h).ctx.state = .waitGen then
      accept [] (suspend .manual h s)
    else refuse .badState s) s

/-! ### RESUME HEAD (R42, R43) -/

/-- Check 3 of R42: the from-segment a RESUME HEAD may name. -/
def resumeSegmentOk (rec_ : SuspendRecord) (k : Nat) (cont : Bool) : Bool :=
  decide (k ≤ rec_.segIndex) && (!cont || k == rec_.segIndex)

/-- Check 4 of R42: the fault status blocks the resume. -/
def resumeBlocked (rec_ : SuspendRecord) (st : List FaultKind) : Bool :=
  st.contains .coolantLost || (match rec_.cause with
    | .manual => false
    | .fault k => st.contains k)

/-- The head set up by an accepted RESUME HEAD (R43, R66). -/
def Head.resumedFrom (x : Head) (rec_ : SuspendRecord) (k : Nat) (cont : Bool) : Head :=
  { x with
    ctx := { x.ctx with
      segIndex := if cont then rec_.segIndex else k,
      entryOffset := if cont then rec_.elapsed else 0,
      rampOrigin := if cont then rec_.rampOrigin else x.ctx.rampOrigin,
      segsDone := if cont then rec_.segIndex else k,
      windowTimer := none, resumed := true, served := false, couplingLow := 0, contEntry := cont },
    hcu := { x.hcu with integrator := if cont then rec_.integrator else 0, demand := 0,
                        seqRef := none } }

/-- An accepted RESUME HEAD (R43, R27). -/
def resumeJoint (h : HeadId) (rec_ : SuspendRecord) (k : Nat) (cont : Bool) (s : State) : State :=
  enterJoint h (s.modHead h fun x => x.resumedFrom rec_ k cont)

/-- RESUME HEAD (R42). The reply carries the head's state after the resume. -/
def doResumeHead (head seg : Byte) (cont : Bool) (s : State) : Answer :=
  withHead head (fun h s =>
    if (s.head h).ctx.state ≠ .suspended then refuse .badState s
    else match (s.head h).ctx.suspendRec with
      | none => refuse .badState s
      | some rec_ =>
        if !resumeSegmentOk rec_ seg.toNat cont then refuse .badArgument s
        else if resumeBlocked rec_ (s.head h).fr.status then refuse .badState s
        else if !s.interlocksOk h then refuse .interlock s
        else
          let s' := resumeJoint h rec_ seg.toNat cont s
          accept [(s'.head h).ctx.state.code] s') s

/-! ### CLEAR HEAD, DISABLE HEAD, ENABLE HEAD (R45, R46, R47) -/

/-- CLEAR HEAD (R45). -/
def doClearHead (head : Byte) (s : State) : Answer :=
  withHead head (fun h s =>
    if (s.head h).ctx.state ≠ .faulted then refuse .badState s
    else if (s.head h).fr.status ≠ [] then refuse .badState s
    else accept [] (s.modCtx h fun c => { c with state := .idle })) s

/-- A head with its enabled field and state set (R46, R47). -/
def Head.withEnabled (x : Head) (on : Bool) (st : HeadState) : Head :=
  { x with cfg := { x.cfg with enabled := on }, ctx := { x.ctx with state := st } }

/-- DISABLE HEAD (R46). -/
def doDisableHead (head : Byte) (s : State) : Answer :=
  withHead head (fun h s =>
    if (s.head h).ctx.state ≠ .idle then refuse .badState s
    else accept [] (s.modHead h fun x => x.withEnabled false .disabled)) s

/-- ENABLE HEAD (R47). -/
def doEnableHead (head : Byte) (s : State) : Answer :=
  withHead head (fun h s =>
    if (s.head h).ctx.state ≠ .disabled then refuse .badState s
    else accept [] (s.modHead h fun x => x.withEnabled true .idle)) s

/-! ### CLEAR FAULTS (R150) -/

/-- A head's fault record after `ks` are cleared (R150). -/
def FaultRecord.cleared (f : FaultRecord) (ks : List FaultKind) : FaultRecord :=
  let gone := fun k => ks.contains k && f.status.contains k
  let drop := match f.pointer with
    | some k => gone k
    | none => false
  { status := f.status.filter fun k => !ks.contains k,
    pointer := if drop then none else f.pointer,
    capture := if drop then none else f.capture }

/-- A fault status as bytes: the list of kinds present, in the order of R139 (R154). -/
def statusBytes (st : List FaultKind) : List Byte :=
  let l := FaultKind.all.filter fun k => st.contains k
  byte l.length :: l.map FaultKind.code

/-- A pointer as bytes: an optional field. -/
def pointerBytes (p : Option FaultKind) : List Byte := optBytes (fun k => [FaultKind.code k]) p

/-- The kinds a CLEAR FAULTS names; `none` where the set is empty or names none of the nine (R150, DEDUCED,
log 21). -/
def clearSet (kinds : List Byte) : Option (List FaultKind) :=
  if kinds = [] then none else kinds.mapM kindOf

/-- CLEAR FAULTS (R150). The reply carries the status and pointer after the request. -/
def doClearFaults (head : Byte) (kinds : List Byte) (s : State) : Answer :=
  withHead head (fun h s =>
    match clearSet kinds with
    | none => refuse .badArgument s
    | some ks =>
      let s' := s.modHead h fun x => { x with fr := x.fr.cleared ks }
      accept (statusBytes (s'.head h).fr.status ++ pointerBytes (s'.head h).fr.pointer) s') s

/-! ### WRITE HEAD CONFIG (R23, R137) -/

/-- The configuration a request would store, after the clamps of R23; the enabled field stays (R22). -/
def HeadConfig.written (old : HeadConfig) (w : HeadConfigArg) (binding : Option GenId) : HeadConfig :=
  { binding := binding, priority := min w.priority.toNat 7, masked := w.masked,
    powerLimit := min w.powerLimit.toNat 2500, couplingMin := min w.couplingMin.toNat 4000,
    couplingPower := min w.couplingPower.toNat 2500, polPart := w.polPart, polClamp := w.polClamp,
    polCoil := w.polCoil, enabled := old.enabled }

/-- At least one polarity differs (R137). -/
def HeadConfig.polarityDiffers (old new : HeadConfig) : Bool :=
  old.polPart != new.polPart || old.polClamp != new.polClamp || old.polCoil != new.polCoil

/-- A head after an accepted WRITE HEAD CONFIG: a polarity change makes its inputs UNSATISFIED (R137). The
head holds no joint then, so R132 takes no action on the loss. -/
def Head.configured (x : Head) (c : HeadConfig) : Head :=
  { x with cfg := c, inputs := if x.cfg.polarityDiffers c then x.inputs.drop else x.inputs }

/-- A head configuration as bytes, in the order of R22 (R23, R48; DEDUCED, log 18). -/
def HeadConfig.bytes (c : HeadConfig) : List Byte :=
  [bindingCode c.binding, byte c.priority, maskCode c.masked] ++ le16 c.powerLimit
    ++ le16 c.couplingMin ++ le16 c.couplingPower
    ++ [polarityCode c.polPart, polarityCode c.polClamp, polarityCode c.polCoil, flagByte c.enabled]

/-- WRITE HEAD CONFIG (R23). -/
def doWriteHeadConfig (w : HeadConfigArg) (s : State) : Answer :=
  withHead w.head (fun h s =>
    match bindingOf w.binding with
    | none => refuse .badArgument s
    | some b =>
      if s.holds h then refuse .inUse s
      else
        let c := (s.head h).cfg.written w b
        accept c.bytes (s.modHead h fun x => x.configured c)) s

/-! ### CLEAR COOLANT LATCH (R136) -/

/-- CLEAR COOLANT LATCH (R136). The reply carries the latch and the effective coolant state. -/
def doClearCoolantLatch (group : Byte) (s : State) : Answer :=
  match groupOfByte group with
  | none => refuse .badArgument s
  | some g =>
    if !(s.group g).flow.satisfied then refuse .interlock s
    else
      let s' := s.modGroup g fun x => { x with latch := false }
      accept [flagByte (s'.group g).latch, satisfiedCode (s'.group g).flow.satisfied] s'

/-! ### Head timer expiries (R30, R31, R33, R44) -/

/-- The segment timer of a RUNNING head expires: a SOAK exits, a COOL exits with cool timeout, a RAMP takes
SEGMENT_OVERTIME (R30, R31, R8). -/
def segmentExpiry (h : HeadId) (s : State) : State :=
  if (s.head h).ctx.state = .running ∧ due (s.head h).ctx.segTimer then
    match s.segment h with
    | none => s
    | some (.ramp ..) => takeFault h .segmentOvertime s
    | some (.soak ..) => exitSegment h s
    | some (.cool ..) => exitSegment h (s.modCtx h fun c => { c with coolTimeout := true })
  else s

/-- The sample timer of a RUNNING head expires: SENSOR_LOST (R33). -/
def sampleExpiry (h : HeadId) (s : State) : State :=
  if (s.head h).ctx.state = .running ∧ due (s.head h).ctx.sampleTimer then
    takeFault h .sensorLost s
  else s

/-- The resume window timer of a SUSPENDED head expires: SUSPEND_EXPIRED (R44). -/
def windowExpiry (h : HeadId) (s : State) : State :=
  if (s.head h).ctx.state = .suspended ∧ due (s.head h).ctx.windowTimer then
    takeFault h .suspendExpired s
  else s

/-! ### The rows -/

/-- The START row. -/
def execStart (r : ReqHead) (head profile : Byte) (serial : Word32) (s : State) :
    Host.Outcome State Fault Refusal :=
  operatorRow r 16 (encStart head profile serial) (doStart head profile serial) s

/-- The ABORT row. -/
def execAbort (r : ReqHead) (head : Byte) (s : State) : Host.Outcome State Fault Refusal :=
  operatorRow r 17 [head] (doAbort head) s

/-- The SUSPEND_HEAD row. -/
def execSuspendHead (r : ReqHead) (head : Byte) (s : State) : Host.Outcome State Fault Refusal :=
  operatorRow r 18 [head] (doSuspendHead head) s

/-- The RESUME_HEAD row. -/
def execResumeHead (r : ReqHead) (head seg : Byte) (cont : Bool) (s : State) :
    Host.Outcome State Fault Refusal :=
  operatorRow r 19 (encResume head seg cont) (doResumeHead head seg cont) s

/-- The CLEAR_HEAD row. -/
def execClearHead (r : ReqHead) (head : Byte) (s : State) : Host.Outcome State Fault Refusal :=
  operatorRow r 20 [head] (doClearHead head) s

/-- The CLEAR_FAULTS row. -/
def execClearFaults (r : ReqHead) (head : Byte) (kinds : List Byte) (s : State) :
    Host.Outcome State Fault Refusal :=
  operatorRow r 21 (head :: encList kinds) (doClearFaults head kinds) s

/-- The CLEAR_COOLANT_LATCH row. -/
def execClearCoolantLatch (r : ReqHead) (group : Byte) (s : State) :
    Host.Outcome State Fault Refusal :=
  operatorRow r 22 [group] (doClearCoolantLatch group) s

/-- The WRITE_HEAD_CONFIG row. -/
def execWriteHeadConfig (r : ReqHead) (w : HeadConfigArg) (s : State) :
    Host.Outcome State Fault Refusal :=
  engineerRow r 38 (encHeadConfig w) (doWriteHeadConfig w) s

/-- The DISABLE_HEAD row. -/
def execDisableHead (r : ReqHead) (head : Byte) (s : State) : Host.Outcome State Fault Refusal :=
  engineerRow r 42 [head] (doDisableHead head) s

/-- The ENABLE_HEAD row. -/
def execEnableHead (r : ReqHead) (head : Byte) (s : State) : Host.Outcome State Fault Refusal :=
  engineerRow r 43 [head] (doEnableHead head) s

/-- The SEGMENT_TIMER_EXPIRY row. -/
def execSegmentTimerExpiry (h : HeadId) (s : State) : Host.Outcome State Fault Refusal :=
  live (segmentExpiry h) s

/-- The SAMPLE_TIMER_EXPIRY row. -/
def execSampleTimerExpiry (h : HeadId) (s : State) : Host.Outcome State Fault Refusal :=
  live (sampleExpiry h) s

/-- The RESUME_WINDOW_EXPIRY row. -/
def execResumeWindowExpiry (h : HeadId) (s : State) : Host.Outcome State Fault Refusal :=
  live (windowExpiry h) s

end Sys2Proof.Machine
end

