-- ==== Sys2Proof/Machine/Generators.lean ====
section
/-! DEFINITION. The Generator Monitor (chapter 6): faults, readiness, GENSTAT processing, energy crediting,
timer expiries and the effects of a configuration write. -/

namespace Sys2Proof.Machine

/-- GENERATOR_FAULT against one head of a faulted generator: WAIT_GEN and RUNNING heads bound to it, as
they stand (R122 step 5). -/
def faultHeadOf (g : GenId) (s : State) (h : HeadId) : State :=
  let x := s.head h
  if x.cfg.binding = some g ∧ (x.ctx.state = .waitGen ∨ x.ctx.state = .running) then
    takeFault h .generatorFault s
  else s

/-- A generator enters FAULTED (R122). -/
def faultGenerator (g : GenId) (cause : GenCause) (s : State) : State :=
  let left := (s.gen g).state
  let s := s.modGen g fun x =>
    { x with state := .faulted, cause := cause, wakeTimer := none, idleTimer := none,
             statusTimer := none }
  let s := (endRescue g s).noticeGenState g left
  allHeads.foldl (faultHeadOf g) s

/-- A head waiting for `g` enters RUNNING (R113 step 3). -/
def releaseWaiting (g : GenId) (s : State) (h : HeadId) : State :=
  let x := s.head h
  if x.cfg.binding = some g ∧ x.ctx.state = .waitGen then enterSegment h s else s

/-- A WAKING generator enters READY (R113); waiting heads are taken in ascending number (DEDUCED, log 22).
-/
def readyGenerator (g : GenId) (s : State) : State :=
  let left := (s.gen g).state
  let s := s.modGen g fun x =>
    { x with state := .ready, wakeTimer := none, statusTimer := some s.threeSlots }
  let s := allHeads.foldl (releaseWaiting g) s
  (startIdleIfUnheld g s).noticeGenState g left

/-! ### GENSTAT (R117) -/

/-- The values of a GENSTAT as taken (R117). -/
structure Genstat where
  gen       : GenId
  reported  : Reported
  bus       : Nat
  delivered : Nat
  slot      : Byte
  head      : Option HeadId
  deriving DecidableEq, Repr

/-- The reported state a byte names (R178). -/
def reportedOf (b : Byte) : Option Reported :=
  if b = 0 then some .standby else if b = 1 then some .waking
  else if b = 2 then some .ready else if b = 3 then some .fault else none

/-- Reads a GENSTAT payload (R178): `none` where R117 discards it. The voltage is taken as at most 1000
and the power as at most 2500. -/
def readGenstat (p : List Byte) : Option Genstat :=
  match p with
  | [g, st, v0, v1, p0, p1, slot, hd] =>
    match genOf g, reportedOf st, entryOf hd with
    | some gen, some reported, some head =>
      some { gen, reported, bus := min (ofLe16 v0 v1).toNat 1000,
             delivered := min (ofLe16 p0 p1).toNat 2500, slot, head }
    | _, _, _ => none
  | _ => none

/-- Steps 1 to 3 of R117: state and voltage recorded, budget recomputed, status timer restarted. -/
def recordReport (m : Genstat) (s : State) : State :=
  s.modGen m.gen fun x =>
    { x with reported := some m.reported, bus := some m.bus,
             budget := s.mu.config.budgetAt m.gen m.bus,
             statusTimer := if x.state = .ready then some s.threeSlots else x.statusTimer }

/-- The drive history entry a report matches (R121): the oldest one with that slot and head, where the history
holds more (DESIGN CHOICE, log 34: R91 says that it does not). -/
def historyEntry (hist : List DriveEntry) (slot : Byte) (h : HeadId) : Option DriveEntry :=
  hist.find? fun e => e.slot == slot && e.head == h

/-- Step 4 of R117: the delivered energy is credited, or counted late or mismatched (R121). -/
def creditEnergy (m : Genstat) (s : State) : State :=
  match m.head with
  | none => s
  | some h =>
    if m.delivered = 0 then s
    else match historyEntry (s.gen m.gen).history m.slot h with
      | none => s.countDev h .energyMismatch
      | some e =>
        if s.holds h ∧ (s.head h).ctx.serial = e.serial then
          s.modCtx h fun c => { c with energy := add32 c.energy (m.delivered * s.slots.period) }
        else s.countDev h .lateEnergy

/-- Step 5 of R117: the reported state acts on the generator's state (R118). -/
def applyReport (g : GenId) (r : Reported) (s : State) : State :=
  match (s.gen g).state, r with
  | .standby, .fault | .waking, .fault | .ready, .fault => faultGenerator g .reportedFault s
  | .waking, .ready => readyGenerator g s
  | .ready, .standby | .ready, .waking => faultGenerator g .unexpectedState s
  | _, _ => s

/-- A GENSTAT handed to the Generator Monitor (R117): discarded as MALFORMED, ignored for an OFF
generator, or processed whole. The ranges are looked at first: an OFF generator's frame with a reported state
or echoed head out of range is counted MALFORMED (DESIGN CHOICE, log 38: R117 states no order). -/
def takeGenstat (payload : List Byte) (s : State) : State :=
  match readGenstat payload with
  | none => s.countPort .malformed
  | some m =>
    if (s.gen m.gen).state = .off then s
    else applyReport m.gen m.reported (creditEnergy m (recordReport m s))

/-! ### Timer expiries -/

/-- The wake timer of a WAKING generator expires (R114). -/
def wakeExpiry (g : GenId) (s : State) : State :=
  if (s.gen g).state = .waking ∧ due (s.gen g).wakeTimer then faultGenerator g .wakeTimeout s else s

/-- The status timer of a READY generator expires (R115). -/
def statusExpiry (g : GenId) (s : State) : State :=
  if (s.gen g).state = .ready ∧ due (s.gen g).statusTimer then faultGenerator g .statusLost s else s

/-- The idle timer of a READY generator expires: it is parked (R116). -/
def idleExpiry (g : GenId) (s : State) : State :=
  if (s.gen g).state = .ready ∧ due (s.gen g).idleTimer then
    (s.modGen g fun x => { x with state := .standby, idleTimer := none, statusTimer := none })
      |>.noticeGenState g .ready
  else s

/-- The rescue limit timer of `g` expires (R107): the rescue ends, then the head takes SOAK_DEFICIT. -/
def rescueLimitExpiry (g : GenId) (s : State) : State :=
  if due (s.gen g).limitTimer then
    match (s.gen g).inService with
    | none => s.modGen g fun x => { x with limitTimer := none }
    | some h => takeFault h .soakDeficit (endRescue g s)
  else s

/-- The WAKE_TIMER_EXPIRY row. -/
def execWakeTimerExpiry (g : GenId) (s : State) : Host.Outcome State Fault Refusal :=
  live (wakeExpiry g) s

/-- The STATUS_TIMER_EXPIRY row. -/
def execStatusTimerExpiry (g : GenId) (s : State) : Host.Outcome State Fault Refusal :=
  live (statusExpiry g) s

/-- The IDLE_TIMER_EXPIRY row. -/
def execIdleTimerExpiry (g : GenId) (s : State) : Host.Outcome State Fault Refusal :=
  live (idleExpiry g) s

/-- The RESCUE_LIMIT_EXPIRY row. -/
def execRescueLimitExpiry (g : GenId) (s : State) : Host.Outcome State Fault Refusal :=
  live (rescueLimitExpiry g) s

/-! ### A configuration write (R111, R120) -/

/-- The generator's items after it leaves a state by configuration: reported state, voltage and budget
gone, timers stopped. -/
def Generator.cleared (x : Generator) (st : GenState) (cause : GenCause) : Generator :=
  { x with state := st, cause := cause, reported := none, bus := none, budget := 0, wakeTimer := none,
           idleTimer := none, statusTimer := none }

/-- A generator after a write of the part configuration from `old` to `new` (R111, R120). -/
def Generator.reconfigured (x : Generator) (old new : PartConfig) (g : GenId) : Generator :=
  if x.state = .off then
    if new.hasGen g then x.cleared .standby .none else x
  else if !new.hasGen g then x.cleared .off .none
  else if new.station g ≠ old.station g then
    x.cleared .standby x.cause
  else { x with budget := new.budget g x.bus }

/-- The effect of an accepted write on generator `g`: the change, and a GEN_STATE notice where the state
changes (R111, R124). The new configuration stands already (DEDUCED, log 23). -/
def reconfigure (old : PartConfig) (g : GenId) (s : State) : State :=
  let before := (s.gen g).state
  let s := s.modGen g fun x => x.reconfigured old s.mu.config g
  if (s.gen g).state = before then s else s.noticeGenState g before

end Sys2Proof.Machine
end

