-- ==== Sys2Proof/Machine/Profiles.lean ====
section
/-! DEFINITION. The Profile Store's commands: WRITE, ERASE, LOCK, UNLOCK and READ PROFILE (chapter 1). -/

namespace Sys2Proof.Machine

/-! ### Clamps (R12) -/

/-- A value brought within `lo` to `hi`. -/
def clampRange (lo hi n : Nat) : Nat := max lo (min n hi)

end Sys2Proof.Machine

namespace Sys2Proof

open Sys2Proof.Machine

/-- A segment with its clamped fields (R12); `none` for a kind that is none of the three (R13 check 3). -/
def SegArg.clamped : SegArg → Option Segment
  | .ramp t r b l c =>
    some (.ramp t.toNat (clampRange 10 5000 r.toNat) (min b.toNat 500) (clampRange 50 60000 l.toNat)
      (min c.toNat 2500))
  | .soak t d c => some (.soak t.toNat (clampRange 10 60000 d.toNat) (min c.toNat 2500))
  | .cool t l => some (.cool t.toNat (clampRange 10 60000 l.toNat))
  | .other _ => none

/-- The segment as carried, without clamps. -/
def SegArg.carried : SegArg → Option Segment
  | .ramp t r b l c => some (.ramp t.toNat r.toNat b.toNat l.toNat c.toNat)
  | .soak t d c => some (.soak t.toNat d.toNat c.toNat)
  | .cool t l => some (.cool t.toNat l.toNat)
  | .other _ => none

/-- The control parameters after the clamps of R12. -/
def ProfileArg.clampedParams (w : ProfileArg) : Params :=
  { flowTemp := w.flowTemp.toNat, maxTemp := min w.maxTemp.toNat 12000,
    weight := clampRange 1 16 w.weight.toNat, kp := w.kp.toNat, ki := w.ki.toNat,
    deficitBand := min w.deficitBand.toNat 1000, recoverBand := w.recoverBand.toNat }

/-- The control parameters as carried. -/
def ProfileArg.carriedParams (w : ProfileArg) : Params :=
  { flowTemp := w.flowTemp.toNat, maxTemp := w.maxTemp.toNat, weight := w.weight.toNat,
    kp := w.kp.toNat, ki := w.ki.toNat, deficitBand := w.deficitBand.toNat,
    recoverBand := w.recoverBand.toNat }

/-- The criteria after the clamps of R12. -/
def CriteriaArg.clamped (c : CriteriaArg) : Criteria :=
  { minPeak := c.minPeak.map fun v => min v.toNat 12000,
    maxPeak := c.maxPeak.map fun v => min v.toNat 12000,
    minFlow := c.minFlow.map BitVec.toNat, maxFlow := c.maxFlow.map BitVec.toNat,
    minEnergy := c.minEnergy.map fun v => min v.toNat 42949672,
    maxEnergy := c.maxEnergy.map fun v => min v.toNat 42949672,
    maxRescues := c.maxRescues.map BitVec.toNat, fullCool := c.fullCool }

/-- The criteria as carried. -/
def CriteriaArg.carried (c : CriteriaArg) : Criteria :=
  { minPeak := c.minPeak.map BitVec.toNat, maxPeak := c.maxPeak.map BitVec.toNat,
    minFlow := c.minFlow.map BitVec.toNat, maxFlow := c.maxFlow.map BitVec.toNat,
    minEnergy := c.minEnergy.map BitVec.toNat, maxEnergy := c.maxEnergy.map BitVec.toNat,
    maxRescues := c.maxRescues.map BitVec.toNat, fullCool := c.fullCool }

/-- The record contents a request would store, after the clamps (R12). -/
def ProfileArg.clampedRecipe (w : ProfileArg) : Recipe :=
  { params := w.clampedParams, segments := w.segments.filterMap SegArg.clamped,
    criteria := w.criteria.clamped }

/-- The record contents as carried; the clamped indication compares the two (R11). -/
def ProfileArg.carriedRecipe (w : ProfileArg) : Recipe :=
  { params := w.carriedParams, segments := w.segments.filterMap SegArg.carried,
    criteria := w.criteria.carried }

end Sys2Proof

namespace Sys2Proof.Machine

/-! ### Checks (R13, R14) -/

/-- A segment's target (R5). -/
def Segment.target : Segment → Nat
  | .ramp t _ _ _ _ => t
  | .soak t _ _ => t
  | .cool t _ => t

/-- A present minimum exceeds a present maximum. -/
def minAboveMax : Option Nat → Option Nat → Bool
  | some lo, some hi => hi < lo
  | _, _ => false

end Sys2Proof.Machine

namespace Sys2Proof

open Sys2Proof.Machine

/-- Checks 2 to 10 of R13 on the clamped request: the request passes. -/
def ProfileArg.passes (w : ProfileArg) : Bool :=
  let r := w.clampedRecipe
  decide (1 ≤ w.segCount.toNat ∧ w.segCount.toNat ≤ 8 ∧ w.segCount.toNat = w.segments.length)
    && w.segments.all (fun g => g.clamped.isSome)
    && r.segments.any Segment.heats
    && r.segments.all (fun g => decide (g.target ≤ r.params.maxTemp))
    && decide (r.params.flowTemp < r.params.maxTemp)
    && decide (r.params.recoverBand ≤ r.params.deficitBand)
    && !minAboveMax r.criteria.minPeak r.criteria.maxPeak
    && !minAboveMax r.criteria.minFlow r.criteria.maxFlow
    && !minAboveMax r.criteria.minEnergy r.criteria.maxEnergy

end Sys2Proof

namespace Sys2Proof.Machine

/-- An expected revision is given and differs from the record's (R16). -/
def staleFor (expected : Option Word16) (rec_ : ProfileRecord) : Bool :=
  match expected with
  | some e => e != rec_.revision
  | none => false

/-- A STALE refusal carries the record's current revision (R16). -/
def refuseStale (p : ProfileId) (s : State) : Answer :=
  ⟨.stale, enc16 (s.profile p).revision, false, s⟩

/-! ### The commands -/

/-- The effect of an accepted WRITE PROFILE on the record (R11). -/
def ProfileRecord.written (x : ProfileRecord) (r : Recipe) : ProfileRecord :=
  { x with recipe := some r, revision := x.revision + 1 }

/-- WRITE PROFILE (R11-R16). -/
def doWriteProfile (w : ProfileArg) (s : State) : Answer :=
  withProfile w.profile (fun p s =>
    if !w.passes then refuse .badArgument s
    else if (s.profile p).locked then refuse .locked s
    else if s.inUse p then refuse .inUse s
    else if staleFor w.expected (s.profile p) then refuseStale p s
    else
      let s' := s.modProfile p fun x => x.written w.clampedRecipe
      accept (enc16 (s'.profile p).revision
        ++ [flagByte (decide (w.clampedRecipe ≠ w.carriedRecipe))]) s') s

/-- ERASE PROFILE (R17). -/
def doEraseProfile (prof : Byte) (expected : Option Word16) (s : State) : Answer :=
  withProfile prof (fun p s =>
    if (s.profile p).locked then refuse .locked s
    else if s.inUse p then refuse .inUse s
    else if staleFor expected (s.profile p) then refuseStale p s
    else
      let s' := s.modProfile p fun x => { x with recipe := none, revision := x.revision + 1 }
      accept (enc16 (s'.profile p).revision) s') s

/-- The OK reply of LOCK and UNLOCK PROFILE: revision and lock (R18, R19). -/
def lockReply (x : ProfileRecord) : List Byte := enc16 x.revision ++ [flagByte x.locked]

/-- LOCK PROFILE (R18); an expected revision is not tested (R14). -/
def doLockProfile (prof : Byte) (s : State) : Answer :=
  withProfile prof (fun p s =>
    let s' := s.modProfile p fun x => { x with locked := true }
    accept (lockReply (s'.profile p)) s') s

/-- UNLOCK PROFILE (R19); an expected revision is not tested (R14). -/
def doUnlockProfile (prof : Byte) (s : State) : Answer :=
  withProfile prof (fun p s =>
    if s.inUse p then refuse .inUse s
    else
      let s' := s.modProfile p fun x => { x with locked := false }
      accept (lockReply (s'.profile p)) s') s

/-! ### READ PROFILE (R20) -/

/-- A stored segment as bytes (R177). -/
def Segment.bytes : Segment → List Byte
  | .ramp t r b l c => 0 :: (le16 t ++ le16 r ++ le16 b ++ le16 l ++ le16 c)
  | .soak t d c => 1 :: (le16 t ++ le16 d ++ le16 c)
  | .cool t l => 2 :: (le16 t ++ le16 l)

/-- The criteria as bytes, in the order of R9. -/
def Criteria.bytes (c : Criteria) : List Byte :=
  optBytes le16 c.minPeak ++ optBytes le16 c.maxPeak ++ optBytes le32 c.minFlow
    ++ optBytes le32 c.maxFlow ++ optBytes le32 c.minEnergy ++ optBytes le32 c.maxEnergy
    ++ optBytes (fun n => [byte n]) c.maxRescues ++ [flagByte c.fullCool]

/-- A record's contents as bytes. -/
def Recipe.bytes (r : Recipe) : List Byte :=
  le16 r.params.flowTemp ++ le16 r.params.maxTemp
    ++ [byte r.params.weight, byte r.params.kp, byte r.params.ki]
    ++ le16 r.params.deficitBand ++ le16 r.params.recoverBand
    ++ [byte r.segments.length] ++ r.segments.flatMap Segment.bytes ++ r.criteria.bytes

/-- The READ PROFILE data: state (EMPTY 0, VALID 1), lock, revision, and a VALID record's contents. -/
def ProfileRecord.bytes (x : ProfileRecord) : List Byte :=
  [flagByte x.recipe.isSome, flagByte x.locked] ++ enc16 x.revision
    ++ (match x.recipe with
        | none => []
        | some r => r.bytes)

/-- READ PROFILE (R20). -/
def doReadProfile (prof : Byte) (s : State) : Answer :=
  withProfile prof (fun p s => accept (s.profile p).bytes s) s

/-! ### The rows -/

/-- The WRITE_PROFILE row. -/
def execWriteProfile (r : ReqHead) (w : ProfileArg) (s : State) : Host.Outcome State Fault Refusal :=
  engineerRow r 32 (encWriteProfile w) (doWriteProfile w) s

/-- The ERASE_PROFILE row. -/
def execEraseProfile (r : ReqHead) (profile : Byte) (expected : Option Word16) (s : State) :
    Host.Outcome State Fault Refusal :=
  engineerRow r 33 (encErase profile expected) (doEraseProfile profile expected) s

/-- The LOCK_PROFILE row. -/
def execLockProfile (r : ReqHead) (profile : Byte) (expected : Option Word16) (s : State) :
    Host.Outcome State Fault Refusal :=
  engineerRow r 34 (encLock profile expected) (doLockProfile profile) s

/-- The UNLOCK_PROFILE row. -/
def execUnlockProfile (r : ReqHead) (profile : Byte) (expected : Option Word16) (s : State) :
    Host.Outcome State Fault Refusal :=
  engineerRow r 35 (encLock profile expected) (doUnlockProfile profile) s

/-- The READ_PROFILE row. -/
def execReadProfile (r : ReqHead) (profile : Byte) (s : State) : Host.Outcome State Fault Refusal :=
  operatorRow r 4 [profile] (doReadProfile profile) s

end Sys2Proof.Machine
end

