-- ==== Sys2Proof/Machine/Management.lean ====
section
/-! DEFINITION. The Management Unit's own commands: WRITE PART CONFIG, WRITE FAULT POLICY, ACK COLD START,
CLEAR COUNTERS, CLEAR GENERATOR, RESET PART and unknown commands (chapters 6, 8 and 11). -/

namespace Sys2Proof.Machine

/-! ### WRITE PART CONFIG (R194-R196) -/

/-- The record a request would store, after the clamps of R195, for its two rescue modes. -/
def clampConfig (w : PartConfigArg) (modeA modeB : RescueMode) : PartConfig :=
  { slotPeriod := clampRange 2 20 w.slotPeriod.toNat, concentrator := min w.concentrator.toNat 62,
    ioStation := min w.ioStation.toNat 62, stationA := min w.stationA.toNat 62,
    stationB := min w.stationB.toNat 62, noticeStation := min w.noticeStation.toNat 62,
    ratingA := min w.ratingA.toNat 2500, ratingB := min w.ratingB.toNat 2500,
    vt := min w.vt.toNat 1000, vf := min w.vf.toNat 1000,
    wakeTimeout := clampRange 50 2000 w.wakeTimeout.toNat,
    idleDelay := clampRange 100 10000 w.idleDelay.toNat,
    interlockTimeout := clampRange 10 200 w.interlockTimeout.toNat,
    rescueLimit := clampRange 50 5000 w.rescueLimit.toNat,
    resumeWindow := clampRange 100 30000 w.resumeWindow.toNat, modeA := modeA, modeB := modeB }

/-- The record as carried; the clamped indication compares the two (R195). -/
def carriedConfig (w : PartConfigArg) (modeA modeB : RescueMode) : PartConfig :=
  { slotPeriod := w.slotPeriod.toNat, concentrator := w.concentrator.toNat,
    ioStation := w.ioStation.toNat, stationA := w.stationA.toNat, stationB := w.stationB.toNat,
    noticeStation := w.noticeStation.toNat, ratingA := w.ratingA.toNat, ratingB := w.ratingB.toNat,
    vt := w.vt.toNat, vf := w.vf.toNat, wakeTimeout := w.wakeTimeout.toNat,
    idleDelay := w.idleDelay.toNat, interlockTimeout := w.interlockTimeout.toNat,
    rescueLimit := w.rescueLimit.toNat, resumeWindow := w.resumeWindow.toNat, modeA := modeA,
    modeB := modeB }

/-- Check 3 of R195: a field that may not change while a joint is held differs. -/
def PartConfig.heldFieldsDiffer (old new : PartConfig) : Bool :=
  old.slotPeriod != new.slotPeriod || old.stationA != new.stationA || old.stationB != new.stationB
    || old.ratingA != new.ratingA || old.ratingB != new.ratingB

/-- The record as bytes, in the order of R194. -/
def PartConfig.bytes (c : PartConfig) : List Byte :=
  le16 c.slotPeriod
    ++ [byte c.concentrator, byte c.ioStation, byte c.stationA, byte c.stationB, byte c.noticeStation]
    ++ le16 c.ratingA ++ le16 c.ratingB ++ le16 c.vt ++ le16 c.vf ++ le16 c.wakeTimeout
    ++ le16 c.idleDelay ++ le16 c.interlockTimeout ++ le16 c.rescueLimit ++ le16 c.resumeWindow
    ++ [c.modeA.code, c.modeB.code]

/-- The effect of an accepted WRITE PART CONFIG: the record stands at once, then generator A and generator
B are brought up to date (R196; DEDUCED, log 23). -/
def writeConfig (new : PartConfig) (s : State) : State :=
  let old := s.mu.config
  let s := s.modMu fun m => { m with config := new }
  reconfigure old .b (reconfigure old .a s)

/-- WRITE PART CONFIG (R195). -/
def doWritePartConfig (w : PartConfigArg) (s : State) : Answer :=
  match modeOf w.modeA, modeOf w.modeB with
  | some ma, some mb =>
    let new := clampConfig w ma mb
    if new.vf ≤ new.vt then refuse .badArgument s
    else if s.anyHolds && s.mu.config.heldFieldsDiffer new then refuse .inUse s
    else accept (new.bytes ++ [flagByte (decide (new ≠ carriedConfig w ma mb))]) (writeConfig new s)
  | _, _ => refuse .badArgument s

/-! ### WRITE FAULT POLICY (R141) -/

/-- One entry of a request: `none` where its severity is neither SUSPEND nor ABORT, or a fixed kind is
given SUSPEND (R141); the mask byte is two-valued (DESIGN CHOICE, log 12). -/
def policyEntry (k : FaultKind) (p : Byte × Byte) : Option PolicyEntry :=
  match openByte .policyMask p.1, severityOf p.2 with
  | some unmasked, some sev =>
    if k.fixedAbort ∧ sev = .suspend then none else some ⟨!unmasked, sev⟩
  | _, _ => none

/-- The policy a request carries: exactly one entry for each kind, in the order of R139 (R141, DEDUCED, log
13). -/
def policyOf (entries : List (Byte × Byte)) : Option (Vector PolicyEntry 9) :=
  if entries.length = 9 then
    match (FaultKind.all.zip entries).mapM fun p => policyEntry p.1 p.2 with
    | some l => if h : l.toArray.size = 9 then some ⟨l.toArray, h⟩ else none
    | none => none
  else none

/-- A policy as bytes: mask and severity of each kind in the order of R139 (R198). -/
def policyBytes (v : Vector PolicyEntry 9) : List Byte :=
  v.toList.flatMap fun e => [maskCode e.masked, e.severity.code]

/-- WRITE FAULT POLICY (R141). -/
def doWriteFaultPolicy (entries : List (Byte × Byte)) (s : State) : Answer :=
  match policyOf entries with
  | none => refuse .badArgument s
  | some v => accept (policyBytes v) (s.modMu fun m => { m with policy := v })

/-! ### ACK COLD START, CLEAR COUNTERS, RESET PART (R197, R199, R200) -/

/-- ACK COLD START (R197). -/
def doAckColdStart (s : State) : Answer :=
  accept [flagByte s.mu.cold] (s.modMu fun m => { m with cold := false })

/-- Every counter of READ COUNTERS set to 0 (R199). -/
def zeroCounters (s : State) : State :=
  let s := s.modAllHeads fun _ x => { x with deviations := Vector.replicate 11 0 }
  let s := s.modRp fun rp => { rp with counters := Vector.replicate 9 0 }
  { s with interlocks := { s.interlocks with timeouts := 0 } }

/-- CLEAR COUNTERS (R199). -/
def doClearCounters (s : State) : Answer := accept [] (zeroCounters s)

/-- RESET PART (R200): the reply carries the reset mark, and the MU becomes reset pending. -/
def doResetPart (s : State) : Answer :=
  ⟨.ok, [], true, s.modMu fun m => { m with resetPending := true }⟩

/-! ### CLEAR GENERATOR (R123) -/

/-- CLEAR GENERATOR (R123). The reply carries the new state. -/
def doClearGenerator (gen : Byte) (s : State) : Answer :=
  withGen gen (fun g s =>
    if (s.gen g).state ≠ .faulted then refuse .badState s
    else if (s.gen g).reported = some .fault then refuse .badState s
    else
      let s' := (s.modGen g fun x => { x with state := .standby, bus := none, budget := 0 })
        |>.noticeGenState g .faulted
      accept [(s'.gen g).state.code] s') s

/-! ### The rows -/

/-- The WRITE_PART_CONFIG row. -/
def execWritePartConfig (r : ReqHead) (w : PartConfigArg) (s : State) :
    Host.Outcome State Fault Refusal :=
  engineerRow r 40 (encPartConfig w) (doWritePartConfig w) s

/-- The WRITE_FAULT_POLICY row. -/
def execWriteFaultPolicy (r : ReqHead) (entries : List (Byte × Byte)) (s : State) :
    Host.Outcome State Fault Refusal :=
  engineerRow r 41 (encPolicyArgs entries) (doWriteFaultPolicy entries) s

/-- The ACK_COLD_START row. -/
def execAckColdStart (r : ReqHead) (s : State) : Host.Outcome State Fault Refusal :=
  operatorRow r 24 [] doAckColdStart s

/-- The CLEAR_COUNTERS row. -/
def execClearCounters (r : ReqHead) (s : State) : Host.Outcome State Fault Refusal :=
  operatorRow r 25 [] doClearCounters s

/-- The CLEAR_GENERATOR row. -/
def execClearGenerator (r : ReqHead) (gen : Byte) (s : State) : Host.Outcome State Fault Refusal :=
  operatorRow r 23 [gen] (doClearGenerator gen) s

/-- The RESET_PART row. -/
def execResetPart (r : ReqHead) (s : State) : Host.Outcome State Fault Refusal :=
  engineerRow r 44 [] doResetPart s

end Sys2Proof.Machine
end

