-- ==== Sys2Proof/Machine/Reads.lean ====
section
/-! DEFINITION. The reads of the part's status, configuration, counters, heads, faults and results (R48, R125,
R138, R154, R167, R168, R198, R199). -/

namespace Sys2Proof.Machine

/-- A timer in a reply: whether it runs and, if it runs, the milliseconds left. -/
def timerBytes (t : Option Nat) : List Byte := optBytes le16 t

/-! ### READ STATUS (R198) -/

/-- A generator in READ STATUS: the items of R125, those of R109, the load pending flag. -/
def State.genStatusBytes (s : State) (g : GenId) : List Byte :=
  let x := s.gen g
  [x.state.code] ++ optBytes (fun r => [Reported.code r]) x.reported ++ optBytes le16 x.bus
    ++ le16 x.budget ++ [x.cause.code] ++ timerBytes x.wakeTimer ++ timerBytes x.idleTimer
    ++ timerBytes x.statusTimer ++ [(s.mu.config.mode g).code, headCode x.inService]
    ++ timerBytes x.limitTimer ++ x.rotation.map (fun h => headCode (some h))
    ++ [flagByte x.loadPending]

/-- A group in READ STATUS (R138). -/
def Group.bytes (x : Group) : List Byte :=
  [rawCode x.flow.raw, satisfiedCode x.flow.satisfied, flagByte x.flow.mark, flagByte x.latch]

/-- An input in READ STATUS (R138): raw state, effective state, debounce mark. -/
def Input.bytes (i : Input) : List Byte :=
  [rawCode i.raw, satisfiedCode i.satisfied, flagByte i.mark]

/-- A head in READ STATUS (R198, R138). -/
def Head.statusBytes (x : Head) : List Byte :=
  [x.ctx.state.code, byte x.ctx.segIndex, flagByte x.ctx.reservation]
    ++ x.inputs.part.bytes ++ x.inputs.clamp.bytes ++ x.inputs.coil.bytes
    ++ [satisfiedCode x.inputs.verdict, flagByte x.rescueReq]

/-- The four transmit queues and the request queue, as counts of frames waiting (R198; DEDUCED, log 30), the
queues in the order of preference of R185 (DESIGN CHOICE, log 36). -/
def State.queueBytes (s : State) : List Byte :=
  [byte s.rp.drive.length, byte s.rp.forward.length, byte s.rp.replies.length,
   byte s.rp.notices.length, byte s.mu.requests.length]

/-- READ STATUS page 0 (R198). The levels of ENG_EN and FAULT_N are 1 for high (DEDUCED, log 14). -/
def State.statusPage0 (s : State) : List Byte :=
  [0, flagByte s.mu.cold, s.ownStation, flagByte s.engEn, flagByte s.faultN, s.slots.number]
    ++ s.genStatusBytes .a ++ s.genStatusBytes .b
    ++ allGroups.flatMap (fun g => (s.group g).bytes)
    ++ timerBytes s.interlocks.frameTimer
    ++ [byte s.results.length, byte s.reservations, byte s.freePlaces]
    ++ s.queueBytes

/-- H0-H7. -/
def lowHeads : List HeadId := [0, 1, 2, 3, 4, 5, 6, 7]

/-- H8-H15. -/
def highHeads : List HeadId := [8, 9, 10, 11, 12, 13, 14, 15]

/-- READ STATUS (R198). -/
def doReadStatus (page : Byte) (s : State) : Answer :=
  if page = 0 then accept s.statusPage0 s
  else if page = 1 then accept (1 :: lowHeads.flatMap fun h => (s.head h).statusBytes) s
  else if page = 2 then accept (2 :: highHeads.flatMap fun h => (s.head h).statusBytes) s
  else refuse .badArgument s

/-! ### READ CONFIG and READ COUNTERS (R198, R199) -/

/-- READ CONFIG (R198). -/
def doReadConfig (s : State) : Answer :=
  accept (s.ownStation :: s.mu.config.bytes ++ policyBytes s.mu.policy) s

/-- A head's eleven deviation counters in the order of R155. -/
def Head.deviationBytes (x : Head) : List Byte := x.deviations.toList.flatMap le16

/-- READ COUNTERS (R199). -/
def doReadCounters (page : Byte) (s : State) : Answer :=
  if page = 0 then
    accept (0 :: s.rp.counters.toList.flatMap le16 ++ le16 s.interlocks.timeouts
      ++ lowHeads.flatMap fun h => (s.head h).deviationBytes) s
  else if page = 1 then accept (1 :: highHeads.flatMap fun h => (s.head h).deviationBytes) s
  else refuse .badArgument s

/-! ### READ HEAD (R48) -/

/-- The joint fields of a head context in the order of R21, without timers, suspend record and
configuration. The reservation is sent as a flag, 1 for held (DESIGN CHOICE, log 37: R21 lists 'held or not
held', whose list order under R177 would give held 0). -/
def HeadContext.bytes (c : HeadContext) : List Byte :=
  [c.state.code] ++ enc32 c.serial ++ optBytes (fun p => [byte (Fin.val p)]) c.profile
    ++ enc16 c.revision ++ [byte c.segIndex] ++ le16 c.entryOffset ++ enc32 c.segStart
    ++ optBytes le16 c.rampOrigin ++ enc32 c.jointStart ++ le16 c.peak ++ le32 c.timeAboveFlow
    ++ le32 c.energy ++ le16 c.rescueCount ++ [byte c.segsDone]
    ++ [flagByte c.derated, flagByte c.earlyRelease, flagByte c.coolTimeout, flagByte c.resumed,
        flagByte c.suspendedOnce, c.lastOutcome.code, flagByte c.reservation, flagByte c.served,
        byte c.couplingLow]

/-- The last accepted sample as bytes (R49). -/
def Sample.bytes (m : Sample) : List Byte :=
  m.seq :: le16 m.temp ++ le16 m.current ++ [m.quality.code, flagByte m.saturated] ++ enc32 m.time

/-- The Heat Control Unit's values READ HEAD returns (R48, R49). -/
def Hcu.bytes (u : Hcu) : List Byte :=
  optBytes le16 u.filtered ++ le16 u.setpoint ++ le16 u.integrator ++ le16 u.demand
    ++ optBytes Sample.bytes u.lastSample

/-- The segment's elapsed time, given for a RUNNING head (R48; DEDUCED, log 17). -/
def State.elapsedBytes (s : State) (h : HeadId) : List Byte :=
  optBytes le16 (if (s.head h).ctx.state = .running then some (s.since (s.head h).ctx.segStart)
    else none)

/-- The READ HEAD data (R48). -/
def State.headBytes (s : State) (h : HeadId) : List Byte :=
  let x := s.head h
  x.ctx.bytes ++ timerBytes x.ctx.segTimer ++ timerBytes x.ctx.sampleTimer
    ++ timerBytes x.ctx.windowTimer ++ s.elapsedBytes h ++ x.cfg.bytes ++ x.hcu.bytes

/-- READ HEAD (R48). -/
def doReadHead (head : Byte) (s : State) : Answer :=
  withHead head (fun h s => accept (s.headBytes h) s) s

/-! ### READ FAULTS (R154) -/

/-- A captured sample as bytes (R143). -/
def CapturedSample.bytes (m : CapturedSample) : List Byte :=
  m.seq :: le16 m.temp ++ le16 m.current ++ [m.quality.code]

/-- A capture record as bytes: the fields of R143 in its order, without the peak (DESIGN CHOICE, log 33). -/
def Capture.bytes (c : Capture) : List Byte :=
  [c.kind.code, c.action.code] ++ enc32 c.serial ++ [c.headState.code, byte c.segIndex]
    ++ le16 c.elapsed ++ optBytes CapturedSample.bytes c.sample ++ optBytes le16 c.filtered
    ++ le16 c.setpoint ++ le16 c.demand ++ enc32 c.time

/-- A suspend record as bytes, in the order of R39. -/
def SuspendRecord.bytes (r : SuspendRecord) : List Byte :=
  [r.cause.code, byte r.segIndex] ++ le16 r.elapsed ++ optBytes le16 r.rampOrigin
    ++ le16 r.setpoint ++ optBytes le16 r.filtered ++ le16 r.integrator ++ le32 r.energy
    ++ le32 r.timeAboveFlow ++ le16 r.peak ++ le16 r.rescueCount
    ++ [flagByte r.inRescue, flagByte r.derated] ++ enc32 r.time

/-- The READ FAULTS data (R154). -/
def Head.faultBytes (x : Head) : List Byte :=
  Machine.statusBytes x.fr.status ++ pointerBytes x.fr.pointer ++ optBytes Capture.bytes x.fr.capture
    ++ optBytes SuspendRecord.bytes x.ctx.suspendRec
    ++ [flagByte x.ctx.suspendedOnce, x.ctx.state.code]

/-- READ FAULTS (R154). -/
def doReadFaults (head : Byte) (s : State) : Answer :=
  withHead head (fun h s => accept (s.head h).faultBytes s) s

/-! ### READ RESULTS and PEEK RESULTS (R167, R168) -/

/-- A result record as bytes, in the order of R162. -/
def ResultRecord.bytes (r : ResultRecord) : List Byte :=
  enc32 r.serial ++ [headCode (some r.head), byte r.profile.val] ++ enc16 r.revision
    ++ [r.outcome.code]
    ++ optBytes (fun l => byte (List.length l) :: l.map Criterion.code) r.failed
    ++ optBytes (fun k => [FaultKind.code k]) r.kind
    ++ le16 r.peak ++ le32 r.timeAboveFlow ++ le32 r.joules ++ enc32 r.duration ++ [byte r.segsDone]
    ++ le16 r.rescueCount
    ++ [flagByte r.resumed, flagByte r.derated, flagByte r.earlyRelease, flagByte r.coolTimeout]

/-- The records returned, and the counts after (R167, R168). -/
def resultReply (taken : List ResultRecord) (after : State) : List Byte :=
  byte taken.length :: taken.flatMap ResultRecord.bytes
    ++ [byte after.results.length, byte after.reservations]

/-- READ RESULTS (R167): the records taken are removed. -/
def doReadResults (count : Byte) (s : State) : Answer :=
  if count.toNat < 1 ∨ 4 < count.toNat then refuse .badArgument s
  else
    let s' := { s with results := s.results.drop count.toNat }
    accept (resultReply (s.results.take count.toNat) s') s'

/-- PEEK RESULTS (R168): the queue is not changed. -/
def doPeekResults (count : Byte) (s : State) : Answer :=
  if count.toNat < 1 ∨ 4 < count.toNat then refuse .badArgument s
  else accept (resultReply (s.results.take count.toNat) s) s

/-! ### The rows -/

/-- The READ_STATUS row. -/
def execReadStatus (r : ReqHead) (page : Byte) (s : State) : Host.Outcome State Fault Refusal :=
  operatorRow r 1 [page] (doReadStatus page) s

/-- The READ_CONFIG row. -/
def execReadConfig (r : ReqHead) (s : State) : Host.Outcome State Fault Refusal :=
  operatorRow r 2 [] doReadConfig s

/-- The READ_COUNTERS row. -/
def execReadCounters (r : ReqHead) (page : Byte) (s : State) : Host.Outcome State Fault Refusal :=
  operatorRow r 3 [page] (doReadCounters page) s

/-- The READ_HEAD row. -/
def execReadHead (r : ReqHead) (head : Byte) (s : State) : Host.Outcome State Fault Refusal :=
  operatorRow r 6 [head] (doReadHead head) s

/-- The READ_FAULTS row. -/
def execReadFaults (r : ReqHead) (head : Byte) (s : State) : Host.Outcome State Fault Refusal :=
  operatorRow r 7 [head] (doReadFaults head) s

/-- The READ_RESULTS row. -/
def execReadResults (r : ReqHead) (count : Byte) (s : State) : Host.Outcome State Fault Refusal :=
  operatorRow r 8 [count] (doReadResults count) s

/-- The PEEK_RESULTS row. -/
def execPeekResults (r : ReqHead) (count : Byte) (s : State) : Host.Outcome State Fault Refusal :=
  operatorRow r 9 [count] (doPeekResults count) s

end Sys2Proof.Machine
end

