-- ==== Sys2Proof/Machine/Requests.lean ====
section
/-! DEFINITION. The taking of a queued request by its command code (R190, R192): the arguments are read from
bytes and the command carried out. -/

namespace Sys2Proof.Machine

/-- The effect of a request on the part and its answer, by command code (the table of R190). The authority
of engineer commands is checked before the arguments. -/
def carryOut (q : Request) : State → State :=
  match q.code.toNat with
  | 1 => serveOperator q (withArgs readByte q.args doReadStatus)
  | 2 => serveOperator q (withArgs readNone q.args fun _ => doReadConfig)
  | 3 => serveOperator q (withArgs readByte q.args doReadCounters)
  | 4 => serveOperator q (withArgs readByte q.args doReadProfile)
  | 5 => serveOperator q (withArgs readPair q.args fun a => doReadPhases a.1 a.2)
  | 6 => serveOperator q (withArgs readByte q.args doReadHead)
  | 7 => serveOperator q (withArgs readByte q.args doReadFaults)
  | 8 => serveOperator q (withArgs readByte q.args doReadResults)
  | 9 => serveOperator q (withArgs readByte q.args doPeekResults)
  | 16 => serveOperator q (withArgs readStart q.args fun a => doStart a.1 a.2.1 a.2.2)
  | 17 => serveOperator q (withArgs readByte q.args doAbort)
  | 18 => serveOperator q (withArgs readByte q.args doSuspendHead)
  | 19 => serveOperator q (withArgs readResume q.args fun a => doResumeHead a.1 a.2.1 a.2.2)
  | 20 => serveOperator q (withArgs readByte q.args doClearHead)
  | 21 => serveOperator q (withArgs readClearFaults q.args fun a => doClearFaults a.1 a.2)
  | 22 => serveOperator q (withArgs readByte q.args doClearCoolantLatch)
  | 23 => serveOperator q (withArgs readByte q.args doClearGenerator)
  | 24 => serveOperator q (withArgs readNone q.args fun _ => doAckColdStart)
  | 25 => serveOperator q (withArgs readNone q.args fun _ => doClearCounters)
  | 32 => serveEngineer q (withArgs readWriteProfile q.args doWriteProfile)
  | 33 => serveEngineer q (withArgs readErase q.args fun a => doEraseProfile a.1 a.2)
  | 34 => serveEngineer q (withArgs readLock q.args fun a => doLockProfile a.1)
  | 35 => serveEngineer q (withArgs readLock q.args fun a => doUnlockProfile a.1)
  | 36 => serveEngineer q
      (withArgs readWritePhases q.args fun a => doWritePhases a.1 a.2.1 a.2.2.1 a.2.2.2)
  | 37 => serveEngineer q (withArgs readByte q.args doLoadPhases)
  | 38 => serveEngineer q (withArgs readHeadConfig q.args doWriteHeadConfig)
  | 39 => serveEngineer q (withArgs (readList readPair) q.args doWriteExclusions)
  | 40 => serveEngineer q (withArgs readPartConfig q.args doWritePartConfig)
  | 41 => serveEngineer q fun s =>
      match readPairs q.args with
      | some ps => doWriteFaultPolicy ps s
      | none => refuse .badArgument s
  | 42 => serveEngineer q (withArgs readByte q.args doDisableHead)
  | 43 => serveEngineer q (withArgs readByte q.args doEnableHead)
  | 44 => serveEngineer q (withArgs readNone q.args fun _ => doResetPart)
  | _ => serveOperator q (refuse .unknownCommand)

/-- The oldest request is removed and carried out (R192). -/
def takeOldest (s : State) : State :=
  match s.mu.requests with
  | [] => s
  | q :: rest => carryOut q (s.modMu fun m => { m with requests := rest })

/-- The UNKNOWN_COMMAND row (R190). -/
def execUnknownCommand (r : ReqHead) (code : Byte) (args : List Byte) (s : State) :
    Host.Outcome State Fault Refusal :=
  live (commandArrives r code args (carryOut (rowRequest r code args))) s

end Sys2Proof.Machine
end

