-- ==== Sys2Proof/Machine/Resets.lean ====
section
/-! DEFINITION. The resets: power-on reset, soft reset, and the release of RST_N (R24, R49, R75, R94, R96, R110,
R126, R158, R171, R189, R201). -/

namespace Sys2Proof.Machine

/-! ### Power-on reset -/

/-- The part at a power-on reset with the straps read (R173, R201). The level of ENG_EN is a pin and the
waiting commands are the model's: both stay. A frame under way upstream at a power-on reset by the supply alone
(`rstLow` false), of which R189 does not speak, is received at its arrival: the mark `skipFrame` is clear
(DESIGN CHOICE, log 39). -/
def powerOn (straps : BitVec 6) (rstLow : Bool) (s : State) : State :=
  { State.reset with
      rstHeld := rstLow, engEn := s.engEn, pending := s.pending,
      rp := { State.reset.rp with station := straps } }

/-- The POWER_ON_RESET row: taken whatever the part does. -/
def execPowerOnReset (straps : BitVec 6) (rstLow : Bool) (s : State) :
    Host.Outcome State Fault Refusal :=
  .next (powerOn straps rstLow s)

/-- RST_N returns high (R189): the hold ends; a frame under way is not received. Where RST_N is high
already the event does not happen. -/
def releaseRst (frameUnderWay : Bool) (s : State) : State :=
  if s.rstHeld then
    { s with rstHeld := false, rp := { s.rp with skipFrame := frameUnderWay } }
  else s

/-- The RST_N_RELEASE row. -/
def execRstNRelease (frameUnderWay : Bool) (s : State) : Host.Outcome State Fault Refusal :=
  .next (releaseRst frameUnderWay s)

/-! ### Soft reset -/

/-- A head after a soft reset (R24, R49, R96, R126, R158): the configuration stays, and the enabled field
decides between IDLE and DISABLED. -/
def Head.softReset (x : Head) : Head :=
  { Head.powerOn with
      cfg := x.cfg,
      ctx := { HeadContext.reset with state := if x.cfg.enabled then .idle else .disabled } }

/-- The phase pointer after a soft reset (R75). -/
def PhaseTable.lastIndex (t : PhaseTable) : Option Nat :=
  if t.length = 0 then none else some (t.length - 1)

/-- A generator after a soft reset (R75, R81, R91, R96, R110). -/
def Generator.softReset (x : Generator) (configured : Bool) : Generator :=
  { Generator.powerOn with
      state := if configured then .standby else .off,
      active := x.active, staged := x.staged, stagedDiffers := x.stagedDiffers,
      pointer := x.active.lastIndex }

/-- Every block takes its soft-reset state in one event (R201). -/
def softReset (s : State) : State :=
  { timebase := s.timebase, rstHeld := s.rstHeld, engEn := s.engEn,
    rp := { State.reset.rp with station := s.rp.station, skipFrame := s.rp.skipFrame },
    mu := { requests := [], config := s.mu.config, policy := s.mu.policy, cold := true,
            resetPending := false },
    profiles := s.profiles,
    heads := s.heads.map Head.softReset,
    gens := ⟨s.gens.a.softReset (s.mu.config.hasGen .a), s.gens.b.softReset (s.mu.config.hasGen .b)⟩,
    slots := { timer := s.mu.config.slotPeriod, period := s.mu.config.slotPeriod, number := 0,
               exclusions := s.slots.exclusions },
    interlocks := State.reset.interlocks,
    results := [],
    pending := s.pending }

/-- The downstream port is sending the reply that carries the reset mark (R187). -/
def State.sendsResetReply (s : State) : Bool :=
  match s.rp.port with
  | some f => f.resetMark
  | none => false

/-- The soft reset: it takes effect when the port ends sending the marked reply (R187, R200); where the
port sends no such frame the event does not happen (DEDUCED, log 29). -/
def softResetEvent (s : State) : State := if s.sendsResetReply then softReset s else s

/-- The SOFT_RESET row. -/
def execSoftReset (s : State) : Host.Outcome State Fault Refusal := live softResetEvent s

end Sys2Proof.Machine
end

