-- ==== Sys2Proof/Machine/Samples.lean ====
section
/-! DEFINITION. Sample processing and the heat control law (chapter 3). -/

namespace Sys2Proof.Machine

/-! ### Taking a SAMPLE frame (R50, R51) -/

/-- A SAMPLE as taken (R50): Tm and coil current after their clamps. -/
structure TakenSample where
  head      : HeadId
  seq       : Byte
  temp      : Nat
  current   : Nat
  quality   : Quality
  saturated : Bool
  deriving DecidableEq, Repr

/-- The quality a byte names (R178). -/
def qualityOf (b : Byte) : Option Quality :=
  if b = 0 then some .good else if b = 1 then some .weak else if b = 2 then some .none else none

/-- Reads a SAMPLE payload (R178) and takes its values as R50 states; `none` where the head or quality is
out of range. -/
def readSample (p : List Byte) : Option TakenSample :=
  match p with
  | [hd, seq, t0, t1, i0, i1, q, fl] =>
    if hh : hd.toNat < 16 then
      match qualityOf q with
      | some quality =>
        some { head := ⟨hd.toNat, hh⟩, seq := seq,
               temp := if fl.getLsbD 0 then 12000 else min (ofLe16 t0 t1).toNat 12000,
               current := min (ofLe16 i0 i1).toNat 4000, quality := quality,
               saturated := fl.getLsbD 0 }
      | none => none
    else none
  | _ => none

/-- The verdict of the sequence check (R51). -/
inductive SeqVerdict where
  | accepted | gap | duplicate | outOfOrder
  deriving DecidableEq, Repr

/-- The sequence check against the reference (R51). -/
def seqCheck (ref : Option Byte) (seq : Byte) : SeqVerdict :=
  match ref with
  | none => .accepted
  | some r =>
    let d := (seq - r).toNat
    if d = 0 then .duplicate
    else if d = 1 then .accepted
    else if d ≤ 127 then .gap
    else .outOfOrder

/-- An accepted sample becomes the reference and the last accepted sample (R51, R52). -/
def keepSample (m : TakenSample) (s : State) : State :=
  s.modHcu m.head fun u =>
    { u with seqRef := some m.seq,
             lastSample := some ⟨m.seq, m.temp, m.current, m.quality, m.saturated, s.timebase⟩ }

/-! ### Filter and joint figures (R55-R60) -/

/-- GOOD and WEAK samples reach the filter (R55). -/
def Quality.usable : Quality → Bool
  | .none => false
  | _ => true

/-- The weight of a usable sample for filter weight `k` (R55). -/
def Quality.weight (q : Quality) (k : Nat) : Nat :=
  match q with
  | .weak => max 1 (k / 2)
  | _ => k

/-- One filter step from `tf` toward `tm` with weight `w` (R56). -/
def filterStep (tf tm w : Nat) : Nat :=
  if tf ≤ tm then tf + ((tm - tf) * w + 8) / 16 else tf - ((tf - tm) * w + 8) / 16

/-- The filtered temperature after a usable sample (R56). -/
def filterUpdate (tf : Option Nat) (tm w : Nat) : Option Nat :=
  match tf with
  | none => some tm
  | some t => some (filterStep t tm w)

/-- The peak after a filter update (R57). -/
def peakAfter (peak : Nat) : Option Nat → Nat
  | none => peak
  | some t => max peak t

/-- Time above flow after a sample (R58 step 1): `gap` is the time since the previous joint sample. -/
def flowTimeAfter (total : Nat) (tf : Option Nat) (flow : Nat) (gap : Option Nat) (cap : Nat) : Nat :=
  match gap, tf with
  | some d, some t => if flow ≤ t then add32 total (min d cap) else total
  | _, _ => total

/-- A head after steps 2 to 5 of R54. `inRamp` says that the head is RUNNING in a RAMP. -/
def Head.measured (x : Head) (m : TakenSample) (p : Params) (inRamp : Bool) (now : Word32)
    (cap : Nat) : Head :=
  let tf := if m.quality.usable then filterUpdate x.hcu.filtered m.temp (m.quality.weight p.weight)
    else x.hcu.filtered
  { x with
    ctx := { x.ctx with
      rampOrigin := if inRamp && m.quality.usable && x.ctx.rampOrigin.isNone then tf
        else x.ctx.rampOrigin,
      peak := if m.quality.usable then peakAfter x.ctx.peak tf else x.ctx.peak,
      timeAboveFlow := flowTimeAfter x.ctx.timeAboveFlow tf p.flowTemp
        (x.hcu.prevTime.map fun t => (now - t).toNat) cap },
    hcu := { x.hcu with filtered := tf, prevTime := some now } }

/-- The sample lifts the filtered temperature above the maximum (R59). -/
def Head.overheats (x : Head) (m : TakenSample) (p : Params) : Bool :=
  m.quality.usable && (match x.hcu.filtered with
    | some t => p.maxTemp < t
    | none => false)

/-! ### Coupling (R67, R69) -/

/-- The coupling-low count of a RUNNING head after the check (R67). -/
def Head.couplingAfter (x : Head) (current : Nat) : Nat :=
  if x.ctx.served && x.cfg.couplingMin != 0 && decide (current < x.cfg.couplingMin) then
    min (x.ctx.couplingLow + 1) 3
  else 0

/-- A head after steps 7 and 8 of R54: a usable sample restarts the sample timer of a RUNNING head (R33);
served-since-sample is cleared, and the count of a RUNNING head brought up to date. -/
def Head.coupled (x : Head) (m : TakenSample) (threeSlots : Nat) : Head :=
  let running := x.ctx.state == .running
  { x with ctx := { x.ctx with
      sampleTimer := if running && m.quality.usable then some threeSlots else x.ctx.sampleTimer,
      couplingLow := if running then x.couplingAfter m.current else x.ctx.couplingLow,
      served := false } }

/-! ### Setpoint and control law (R61-R64) -/

/-- A value brought within 0 to `c`. -/
def clampTo (c : Nat) (v : Int) : Nat := min v.toNat c

/-- The proportional term (R62), truncated toward zero. -/
def proportional (kp : Nat) (e : Int) : Int := Int.tdiv (kp * e) 16

/-- The integrator is frozen (R63 part 1). -/
def frozen (demand c : Nat) (e : Int) : Bool :=
  (demand == c && decide (0 < e)) || (demand == 0 && decide (e < 0))

/-- The integrator after a run of the law (R63). -/
def integratorAfter (ki i demand c : Nat) (e : Int) : Nat :=
  clampTo c (if frozen demand c e then (i : Int) else i + Int.tdiv (ki * e) 256)

/-- One run of the control law (R62-R64) with setpoint `tsp`, filtered temperature `tf`, ceiling `c`. -/
def Hcu.control (u : Hcu) (p : Params) (tsp tf c : Nat) : Hcu :=
  let e : Int := (tsp : Int) - tf
  let i := integratorAfter p.ki u.integrator u.demand c e
  { u with setpoint := tsp, integrator := i, demand := clampTo c (proportional p.kp e + i) }

/-- Step 10 of R54 for a usable sample: setpoint (R61) and, in a RAMP or SOAK, the control law. -/
def Hcu.steer (u : Hcu) (p : Params) (seg : Segment) (origin : Option Nat) (elapsed : Nat) : Hcu :=
  match seg, u.filtered with
  | .cool .., _ => { u with setpoint := 0 }
  | _, none => u
  | .ramp t r _ _ c, some tf =>
    match origin with
    | none => { u with demand := 0 }
    | some o => u.control p (rampSetpoint t r o elapsed) tf c
  | .soak t _ c, some tf => u.control p t tf c

/-! ### Exit, deficit and recovery (R30, R70, R71) -/

/-- The exit test of a RAMP or COOL on a filtered temperature (R30). -/
def Segment.exitsAt (seg : Segment) (tf : Nat) : Bool :=
  match seg with
  | .ramp t _ reach _ _ => t ≤ tf + reach
  | .cool t _ => tf ≤ t
  | .soak .. => false

/-- The deficit and recovery tests of a SOAK of target `t` (R70, R71). -/
def soakTests (p : Params) (t tf : Nat) (h : HeadId) (s : State) : State :=
  if tf + p.deficitBand < t then
    if (s.head h).rescueReq || s.inRescue h then s else raiseRequest h s
  else if t ≤ tf + p.recoverBand then dropRescue h s
  else s

/-- Steps 10 to 12 of R54 for a RUNNING head. -/
def runSample (m : TakenSample) (p : Params) (s : State) : State :=
  match s.segment m.head with
  | none => s
  | some seg =>
    let s := if m.quality.usable then
        s.modHead m.head fun x =>
          { x with hcu := x.hcu.steer p seg x.ctx.rampOrigin (s.since x.ctx.segStart) }
      else s
    match (s.head m.head).hcu.filtered with
    | none => s
    | some tf =>
      match seg with
      | .soak t _ _ => soakTests p t tf m.head s
      | _ => if seg.exitsAt tf then exitSegment m.head s else s

/-! ### One sample -/

/-- The head is RUNNING in a RAMP. -/
def State.inRamp (s : State) (h : HeadId) : Bool :=
  (s.head h).ctx.state == .running && (match s.segment h with
    | some (.ramp ..) => true
    | _ => false)

/-- Steps 2 to 12 of R54 for an accepted sample of a head that holds a joint under profile parameters
`p`. -/
def processSample (m : TakenSample) (p : Params) (s : State) : State :=
  let s := s.modHead m.head fun x => x.measured m p (s.inRamp m.head) s.timebase s.threeSlots
  if (s.head m.head).overheats m p then takeFault m.head .overtemp s
  else
    let s := s.modHead m.head fun x => x.coupled m s.threeSlots
    if (s.head m.head).ctx.state = .running then
      if (s.head m.head).ctx.couplingLow = 3 then takeFault m.head .couplingLow s
      else runSample m p s
    else s

/-- An accepted sample (R52-R55): kept, counted where WEAK, and processed where the head holds a joint. -/
def acceptSample (m : TakenSample) (s : State) : State :=
  let s := keepSample m s
  let s := if m.quality = .weak then s.countDev m.head .weak else s
  if s.holds m.head then
    match s.recipe m.head with
    | none => s
    | some r => processSample m r.params s
  else s

/-- The sequence check and what follows (R51, R52). -/
def sequenceSample (m : TakenSample) (s : State) : State :=
  match seqCheck (s.head m.head).hcu.seqRef m.seq with
  | .duplicate => s.countDev m.head .duplicate
  | .outOfOrder => s.countDev m.head .outOfOrder
  | .gap => acceptSample m (s.countDev m.head .sequenceGap)
  | .accepted => acceptSample m s

/-- A SAMPLE payload handed to the Heat Control Unit and the Head Controller (R50). -/
def takeSample (payload : List Byte) (s : State) : State :=
  match readSample payload with
  | none => s.countPort .malformed
  | some m => sequenceSample m s

end Sys2Proof.Machine
end

