-- ==== Sys2Proof/Machine/Events.lean ====
section
/-! DEFINITION. The events at the part's ports and clock: a frame's arrival (R180-R183), the end of a send
(R185, R192), and the millisecond tick (R1). -/

namespace Sys2Proof.Machine

/-! ### Reception (R180-R182) -/

/-- The check field of a frame of at least 6 bytes matches (R175). -/
def crcMatches (bytes : List Byte) : Bool :=
  le16 (crc (bytes.take (bytes.length - 2))).toNat == bytes.drop (bytes.length - 2)

/-- A received frame's fields (R174). -/
structure Received where
  dst     : Byte
  src     : Byte
  kind    : Byte
  length  : Byte
  payload : List Byte
  deriving DecidableEq, Repr

/-- The fields of a frame: the payload is what stands between the length and the check. -/
def fieldsOf (bytes : List Byte) : Option Received :=
  match bytes with
  | dst :: src :: kind :: len :: rest => some ⟨dst, src, kind, len, rest.take (rest.length - 2)⟩
  | _ => none

/-- Check 3 of R180: the length a consumed kind may not have. -/
def wrongLength (f : Received) : Bool :=
  (f.kind == kindSample && f.length != 8) || (f.kind == kindGenstat && f.length != 8)
    || (f.kind == kindInterlock && f.length != 7)
    || (f.kind == kindRequest && decide (f.length.toNat < 4))

/-- A source a configured station accepts (R181): station 0 accepts any. -/
def sourceOk (station : Nat) (src : Byte) : Bool := station == 0 || station == src.toNat

/-- The station a GENSTAT's source is compared with; a generator field that names none is accepted, to be
discarded by the Generator Monitor (R181). -/
def State.genstatStation (s : State) (payload : List Byte) : Nat :=
  match payload.head?.bind genOf with
  | some g => s.mu.config.station g
  | none => 0

/-- Reads an MGMT_REQ payload (R178, R182). -/
def readRequest (src : Byte) (payload : List Byte) : Option Request :=
  match payload with
  | t0 :: t1 :: authority :: code :: args => some ⟨src, ofLe16 t0 t1, authority, code, args⟩
  | _ => none

/-- A frame addressed to the part that has passed checks 1 to 4 (R176, R181, R182). -/
def consume (f : Received) (s : State) : State :=
  if f.kind = kindSample then
    if sourceOk s.mu.config.concentrator f.src then takeSample f.payload s
    else s.countPort .foreignSource
  else if f.kind = kindGenstat then
    if sourceOk (s.genstatStation f.payload) f.src then takeGenstat f.payload s
    else s.countPort .foreignSource
  else if f.kind = kindInterlock then
    if sourceOk s.mu.config.ioStation f.src then takeInterlock f.payload s
    else s.countPort .foreignSource
  else if f.kind = kindRequest then
    match readRequest f.src f.payload with
    | some q => requestArrives q (carryOut q) s
    | none => s
  else s.countPort .unknownKind

/-- Checks 2 to 6 of R180 on a frame whose check field matches. -/
def routeFrame (bytes : List Byte) (s : State) : State :=
  match fieldsOf bytes with
  | none => s.countPort .crcError
  | some f =>
    if 248 < f.length.toNat ∨ bytes.length ≠ 6 + f.length.toNat ∨ 63 < f.dst.toNat then
      s.countPort .malformed
    else if s.transparent then s.modRp fun rp => rp.placeForward bytes
    else if f.dst = s.ownStation ∧ wrongLength f then s.countPort .malformed
    else if f.src = s.ownStation then s.countPort .returned
    else if f.dst = s.ownStation then consume f s
    else s.modRp fun rp => rp.placeForward bytes

/-- A frame that has arrived whole at the upstream port (R180). -/
def arriveFrame (bytes : List Byte) (s : State) : State :=
  if bytes.length < 6 ∨ crcMatches bytes = false then s.countPort .crcError
  else routeFrame bytes s

/-- The FRAME_ARRIVAL row. -/
def execFrameArrival (bytes : List Byte) (engEn : Bool) (s : State) :
    Host.Outcome State Fault Refusal :=
  live (receive engEn (arriveFrame bytes)) s

/-! ### The end of a send (R185, R192) -/

/-- The port ends a frame and begins the next; where that is a reply, a waiting request is taken at once
unless a soft reset is pending (R192). -/
def nextFrame (s : State) : State :=
  let fromReplies := s.rp.nextIsReply
  let s := s.modRp RingPort.beginNext
  if fromReplies && !s.mu.resetPending then takeOldest s else s

/-- The downstream port ends sending a frame (R185): the end of the marked reset reply is the soft reset
(R187); a free port ends nothing. -/
def sendEnd (s : State) : State :=
  match s.rp.port with
  | none => s
  | some f => if f.resetMark then softReset s else nextFrame s

/-- The PORT_SEND_END row. -/
def execPortSendEnd (engEn : Bool) (s : State) : Host.Outcome State Fault Refusal :=
  live (fun s => sendEnd { s with engEn := engEn }) s

/-! ### The millisecond tick (R1) -/

/-- A head's timers after one millisecond. -/
def Head.tick (x : Head) : Head :=
  { x with ctx := { x.ctx with segTimer := tickTimer x.ctx.segTimer,
                               sampleTimer := tickTimer x.ctx.sampleTimer,
                               windowTimer := tickTimer x.ctx.windowTimer } }

/-- A generator's timers after one millisecond. -/
def Generator.tick (x : Generator) : Generator :=
  { x with wakeTimer := tickTimer x.wakeTimer, idleTimer := tickTimer x.idleTimer,
           statusTimer := tickTimer x.statusTimer, limitTimer := tickTimer x.limitTimer }

/-- One millisecond passes (R1): the timebase increases, and every running timer has one less left. -/
def tick (s : State) : State :=
  { s with timebase := s.timebase + 1, heads := s.heads.map Head.tick,
           gens := ⟨s.gens.a.tick, s.gens.b.tick⟩,
           slots := { s.slots with timer := s.slots.timer - 1 },
           interlocks := { s.interlocks with frameTimer := tickTimer s.interlocks.frameTimer } }

/-- The TIMEBASE_TICK row. -/
def execTimebaseTick (s : State) : Host.Outcome State Fault Refusal := live tick s

end Sys2Proof.Machine
end

