-- ==== Sys2Proof/Machine/Dispatch.lean ====
section
/-! DEFINITION. One arm per command: the meaning of each row of spec/opcode_table.json. -/

namespace Sys2Proof.Machine

/-- The effect of a command on everything but the queue of waiting commands. -/
def exec (i : Instr) (s : State) : Host.Outcome State Fault Refusal :=
  match i with
  | .powerOnReset straps rstLow => Sys2Proof.Machine.execPowerOnReset straps rstLow s
  | .softReset => Sys2Proof.Machine.execSoftReset s
  | .frameArrival bytes engEn => Sys2Proof.Machine.execFrameArrival bytes engEn s
  | .portSendEnd engEn => Sys2Proof.Machine.execPortSendEnd engEn s
  | .slotExpiry => Sys2Proof.Machine.execSlotExpiry s
  | .segmentTimerExpiry h => Sys2Proof.Machine.execSegmentTimerExpiry h s
  | .sampleTimerExpiry h => Sys2Proof.Machine.execSampleTimerExpiry h s
  | .resumeWindowExpiry h => Sys2Proof.Machine.execResumeWindowExpiry h s
  | .rescueLimitExpiry g => Sys2Proof.Machine.execRescueLimitExpiry g s
  | .wakeTimerExpiry g => Sys2Proof.Machine.execWakeTimerExpiry g s
  | .statusTimerExpiry g => Sys2Proof.Machine.execStatusTimerExpiry g s
  | .idleTimerExpiry g => Sys2Proof.Machine.execIdleTimerExpiry g s
  | .interlockFrameTimerExpiry => Sys2Proof.Machine.execInterlockFrameTimerExpiry s
  | .readStatus r page => Sys2Proof.Machine.execReadStatus r page s
  | .readConfig r => Sys2Proof.Machine.execReadConfig r s
  | .readCounters r page => Sys2Proof.Machine.execReadCounters r page s
  | .readProfile r profile => Sys2Proof.Machine.execReadProfile r profile s
  | .readPhases r gen table => Sys2Proof.Machine.execReadPhases r gen table s
  | .readHead r head => Sys2Proof.Machine.execReadHead r head s
  | .readFaults r head => Sys2Proof.Machine.execReadFaults r head s
  | .readResults r count => Sys2Proof.Machine.execReadResults r count s
  | .peekResults r count => Sys2Proof.Machine.execPeekResults r count s
  | .start r head profile serial => Sys2Proof.Machine.execStart r head profile serial s
  | .abort r head => Sys2Proof.Machine.execAbort r head s
  | .suspendHead r head => Sys2Proof.Machine.execSuspendHead r head s
  | .resumeHead r head seg cont => Sys2Proof.Machine.execResumeHead r head seg cont s
  | .clearHead r head => Sys2Proof.Machine.execClearHead r head s
  | .clearFaults r head kinds => Sys2Proof.Machine.execClearFaults r head kinds s
  | .clearCoolantLatch r group => Sys2Proof.Machine.execClearCoolantLatch r group s
  | .clearGenerator r gen => Sys2Proof.Machine.execClearGenerator r gen s
  | .ackColdStart r => Sys2Proof.Machine.execAckColdStart r s
  | .clearCounters r => Sys2Proof.Machine.execClearCounters r s
  | .writeProfile r w => Sys2Proof.Machine.execWriteProfile r w s
  | .eraseProfile r profile expected => Sys2Proof.Machine.execEraseProfile r profile expected s
  | .lockProfile r profile expected => Sys2Proof.Machine.execLockProfile r profile expected s
  | .unlockProfile r profile expected => Sys2Proof.Machine.execUnlockProfile r profile expected s
  | .writePhases r gen start entries length => Sys2Proof.Machine.execWritePhases r gen start entries length s
  | .loadPhases r gen => Sys2Proof.Machine.execLoadPhases r gen s
  | .writeHeadConfig r w => Sys2Proof.Machine.execWriteHeadConfig r w s
  | .writeExclusions r pairs => Sys2Proof.Machine.execWriteExclusions r pairs s
  | .writePartConfig r w => Sys2Proof.Machine.execWritePartConfig r w s
  | .writeFaultPolicy r entries => Sys2Proof.Machine.execWriteFaultPolicy r entries s
  | .disableHead r head => Sys2Proof.Machine.execDisableHead r head s
  | .enableHead r head => Sys2Proof.Machine.execEnableHead r head s
  | .resetPart r => Sys2Proof.Machine.execResetPart r s
  | .unknownCommand r code args => Sys2Proof.Machine.execUnknownCommand r code args s
  | .timebaseTick => Sys2Proof.Machine.execTimebaseTick s
  | .rstNRelease frameUnderWay => Sys2Proof.Machine.execRstNRelease frameUnderWay s

end Sys2Proof.Machine
end

