-- ==== Sys2Proof/Machine/Frames.lean ====
section
/-! DEFINITION. The request frame each management row stands for (R177, R178, R190): its header, command code
and argument bytes; and the ENG_EN level a command carries. -/

namespace Sys2Proof

open Sys2Proof.Machine

/-- The header, command code and argument bytes of a management row; `none` for a row that is no request. -/
def Instr.request : Instr → Option (ReqHead × Byte × List Byte)
  | .powerOnReset _ _ | .softReset | .frameArrival _ _ | .portSendEnd _ | .slotExpiry
  | .segmentTimerExpiry _ | .sampleTimerExpiry _ | .resumeWindowExpiry _ | .rescueLimitExpiry _
  | .wakeTimerExpiry _ | .statusTimerExpiry _ | .idleTimerExpiry _ | .interlockFrameTimerExpiry
  | .timebaseTick | .rstNRelease _ => none
  | .readStatus r page => some (r, 1, [page])
  | .readConfig r => some (r, 2, [])
  | .readCounters r page => some (r, 3, [page])
  | .readProfile r p => some (r, 4, [p])
  | .readPhases r g t => some (r, 5, [g, t])
  | .readHead r h => some (r, 6, [h])
  | .readFaults r h => some (r, 7, [h])
  | .readResults r n => some (r, 8, [n])
  | .peekResults r n => some (r, 9, [n])
  | .start r h p n => some (r, 16, encStart h p n)
  | .abort r h => some (r, 17, [h])
  | .suspendHead r h => some (r, 18, [h])
  | .resumeHead r h k c => some (r, 19, encResume h k c)
  | .clearHead r h => some (r, 20, [h])
  | .clearFaults r h ks => some (r, 21, h :: encList ks)
  | .clearCoolantLatch r g => some (r, 22, [g])
  | .clearGenerator r g => some (r, 23, [g])
  | .ackColdStart r => some (r, 24, [])
  | .clearCounters r => some (r, 25, [])
  | .writeProfile r w => some (r, 32, encWriteProfile w)
  | .eraseProfile r p e => some (r, 33, encErase p e)
  | .lockProfile r p e => some (r, 34, encLock p e)
  | .unlockProfile r p e => some (r, 35, encLock p e)
  | .writePhases r g i es n => some (r, 36, encWritePhases g i es n)
  | .loadPhases r g => some (r, 37, [g])
  | .writeHeadConfig r w => some (r, 38, encHeadConfig w)
  | .writeExclusions r ps => some (r, 39, encPairs ps)
  | .writePartConfig r w => some (r, 40, encPartConfig w)
  | .writeFaultPolicy r es => some (r, 41, encPolicyArgs es)
  | .disableHead r h => some (r, 42, [h])
  | .enableHead r h => some (r, 43, [h])
  | .resetPart r => some (r, 44, [])
  | .unknownCommand r code args => some (r, code, args)

/-- The ENG_EN level of an event at which the Management Unit may take a request (R191, DESIGN CHOICE, log
6). -/
def Instr.engLevel (c : Instr) : Option Bool :=
  match c with
  | .frameArrival _ e | .portSendEnd e => some e
  | _ => c.request.map fun q => q.1.engEn

end Sys2Proof
end

