-- ==== Sys2Proof/WellFormed.lean ====
section
/-! DEFINITION. Which operands a command of the ring can carry: a request's arguments fit the 244 bytes
that R178 leaves beside tag, authority and command, its source is a station, and an unknown command's
code is not in the command code table (R190). -/

namespace Sys2Proof

/-- The command codes of the table of R190. -/
def commandCodes : List Nat :=
  [1, 2, 3, 4, 5, 6, 7, 8, 9, 16, 17, 18, 19, 20, 21, 22, 23, 24, 25,
   32, 33, 34, 35, 36, 37, 38, 39, 40, 41, 42, 43, 44]

/-- The most argument bytes an MGMT_REQ carries: a payload of at most 248 less its first four (R178). -/
def maxArgs : Nat := 244

/-- A request's source is a station 0-63 (R174). -/
def ReqHead.wellFormed (r : ReqHead) : Bool := r.source.toNat ≤ 63

/-- The encoded size of a segment (R177). -/
def SegArg.size : SegArg → Nat
  | .ramp .. => 11
  | .soak .. => 7
  | .cool .. => 5
  | .other _ => 1

/-- A segment kind is one the encoding gives a layout (R177). -/
def SegArg.known : SegArg → Bool
  | .other _ => false
  | _ => true

/-- The encoded size of an optional field whose value has `n` bytes (R177). -/
def optSize {α : Type} (n : Nat) : Option α → Nat
  | none => 1
  | some _ => 1 + n

/-- The encoded size of the criteria (R177). -/
def CriteriaArg.size (c : CriteriaArg) : Nat :=
  optSize 2 c.minPeak + optSize 2 c.maxPeak + optSize 4 c.minFlow + optSize 4 c.maxFlow
    + optSize 4 c.minEnergy + optSize 4 c.maxEnergy + optSize 1 c.maxRescues + 1

/-- The encoded size of a WRITE PROFILE's arguments (R177). -/
def ProfileArg.size (w : ProfileArg) : Nat :=
  13 + optSize 2 w.expected + (w.segments.map SegArg.size).sum + w.criteria.size

/-- A WRITE PROFILE the encoding can carry: the count byte is the number of segments, each of a known
kind, and the whole fits. -/
def ProfileArg.wellFormed (w : ProfileArg) : Bool :=
  w.segCount.toNat = w.segments.length && w.segments.all SegArg.known && w.size ≤ maxArgs

/-- A command as the ring can carry it. -/
def Instr.wellFormed : Instr → Bool
  | .powerOnReset _ _ | .softReset | .frameArrival _ _ | .portSendEnd _ | .slotExpiry
  | .segmentTimerExpiry _ | .sampleTimerExpiry _ | .resumeWindowExpiry _ | .rescueLimitExpiry _
  | .wakeTimerExpiry _ | .statusTimerExpiry _ | .idleTimerExpiry _ | .interlockFrameTimerExpiry
  | .timebaseTick | .rstNRelease _ => true
  | .readStatus r _ | .readConfig r | .readCounters r _ | .readProfile r _ | .readPhases r _ _
  | .readHead r _ | .readFaults r _ | .readResults r _ | .peekResults r _ | .start r _ _ _
  | .abort r _ | .suspendHead r _ | .resumeHead r _ _ _ | .clearHead r _ | .clearCoolantLatch r _
  | .clearGenerator r _ | .ackColdStart r | .clearCounters r | .eraseProfile r _ _
  | .lockProfile r _ _ | .unlockProfile r _ _ | .loadPhases r _ | .writeHeadConfig r _
  | .writePartConfig r _ | .disableHead r _ | .enableHead r _ | .resetPart r => r.wellFormed
  | .clearFaults r _ kinds => r.wellFormed && kinds.length + 2 ≤ maxArgs
  | .writeProfile r w => r.wellFormed && w.wellFormed
  | .writePhases r _ _ entries _ => r.wellFormed && entries.length + 4 ≤ maxArgs
  | .writeExclusions r pairs => r.wellFormed && 2 * pairs.length + 1 ≤ maxArgs
  | .writeFaultPolicy r entries => r.wellFormed && 2 * entries.length ≤ maxArgs
  | .unknownCommand r code args =>
    r.wellFormed && !commandCodes.contains code.toNat && args.length ≤ maxArgs

end Sys2Proof
end

