-- ==== Sys2Proof/Safety.lean ====
section
/-! DEFINITION. What counts as a legal state of the part, one law at a time, and the words the statements
use: how a request is taken at once, how it is answered, what a fault and a joint's end leave. -/

namespace Sys2Proof.Machine

/-! ### Queues (R92, R182-R185, R91) -/

/-- The bounds of the transmit queues, the request queue and the drive histories, one drive place per
generator, and a free port only where nothing waits. -/
def State.QueuesLegal (s : State) : Prop :=
  (s.rp.drive.map Prod.fst).Nodup ∧ s.rp.forward.length ≤ 24 ∧ s.rp.replies.length ≤ 4
    ∧ s.rp.notices.length ≤ 16 ∧ s.mu.requests.length ≤ 4
    ∧ s.gens.a.history.length ≤ 4 ∧ s.gens.b.history.length ≤ 4
    ∧ (s.rp.port = none →
        s.rp.drive = [] ∧ s.rp.forward = [] ∧ s.rp.replies = [] ∧ s.rp.notices = [])

/-- Every counter stays within its 16 bits (00_scope.md, R126, R155, R188). -/
def State.CountersLegal (s : State) : Prop :=
  (∀ c : Fin 9, s.rp.counters[c] ≤ 65535) ∧ s.interlocks.timeouts ≤ 65535
    ∧ ∀ h, ∀ d : Fin 11, (s.head h).deviations[d] ≤ 65535

/-! ### Profiles and joints (R5, R12, R13, R15, R36) -/

/-- The ranges a stored segment keeps under a maximum temperature (R6-R8, R13). -/
def Segment.Legal (maxTemp : Nat) : Segment → Prop
  | .ramp t r b l c => t ≤ maxTemp ∧ 10 ≤ r ∧ r ≤ 5000 ∧ b ≤ 500 ∧ 50 ≤ l ∧ l ≤ 60000 ∧ c ≤ 2500
  | .soak t d c => t ≤ maxTemp ∧ 10 ≤ d ∧ d ≤ 60000 ∧ c ≤ 2500
  | .cool t l => t ≤ maxTemp ∧ 10 ≤ l ∧ l ≤ 60000

/-- What WRITE PROFILE leaves of a record's contents (R4, R5, R13). -/
def Recipe.Legal (r : Recipe) : Prop :=
  1 ≤ r.segments.length ∧ r.segments.length ≤ 8 ∧ (∃ g ∈ r.segments, g.heats = true)
    ∧ r.params.maxTemp ≤ 12000 ∧ r.params.flowTemp < r.params.maxTemp
    ∧ 1 ≤ r.params.weight ∧ r.params.weight ≤ 16
    ∧ r.params.deficitBand ≤ 1000 ∧ r.params.recoverBand ≤ r.params.deficitBand
    ∧ ∀ g ∈ r.segments, g.Legal r.params.maxTemp

/-- Every VALID record is legal. -/
def State.ProfilesLegal (s : State) : Prop := ∀ p, ∀ r, (s.profile p).recipe = some r → r.Legal

/-- A head that holds a joint has a reservation and a VALID bound record at the revision its START saw,
with its segment index and that of its suspend record inside the list; no other head has a reservation
(R15, R36). A SUSPENDED head has a suspend record (R40). A RUNNING head has used its entry offset and the
mark of a continued entry (R29). -/
def State.JointLegal (s : State) (h : HeadId) : Prop :=
  (s.head h).ctx.reservation = s.holds h
    ∧ (s.holds h = true → ∃ p r, (s.head h).ctx.profile = some p ∧ (s.profile p).recipe = some r
        ∧ (s.head h).ctx.revision = (s.profile p).revision
        ∧ (s.head h).ctx.segIndex < r.segments.length
        ∧ ∀ q, (s.head h).ctx.suspendRec = some q → q.segIndex < r.segments.length)
    ∧ ((s.head h).ctx.state = .suspended → (s.head h).ctx.suspendRec ≠ none)
    ∧ ((s.head h).ctx.state = .running →
        (s.head h).ctx.entryOffset = 0 ∧ (s.head h).ctx.contEntry = false)

/-- The joint laws of the whole part: legal profiles, legal joints, at most 48 places taken. -/
def State.JointsLegal (s : State) : Prop :=
  s.ProfilesLegal ∧ (∀ h, s.JointLegal h) ∧ s.results.length + s.reservations ≤ 48

/-! ### Fault records (R142, R143, R150) -/

/-- The status stands in the order of R139 without repeats; the pointer is empty or names a kind present;
the capture record is present exactly while the pointer names a kind, and names the same. -/
def FaultRecord.Legal (f : FaultRecord) : Prop :=
  f.status = FaultKind.all.filter (fun k => f.status.contains k)
    ∧ (∀ k, f.pointer = some k → k ∈ f.status) ∧ f.capture.map Capture.kind = f.pointer

/-- Every head's fault record is legal. -/
def State.FaultsLegal (s : State) : Prop := ∀ h, (s.head h).fr.Legal

/-! ### Interlock inputs (R126, R128) -/

/-- The debounce mark is never set while the input is SATISFIED, and neither before a first frame. -/
def Input.Legal (i : Input) : Prop :=
  (i.mark = true → i.satisfied = false) ∧ (i.raw = none → i.satisfied = false ∧ i.mark = false)

/-- Every interlock input is legal. -/
def State.InputsLegal (s : State) : Prop :=
  (∀ h, (s.head h).inputs.part.Legal ∧ (s.head h).inputs.clamp.Legal ∧ (s.head h).inputs.coil.Legal)
    ∧ ∀ g, (s.group g).flow.Legal

/-! ### Timers (R29, R33, R40, R107, R112-R116) -/

/-- The segment and sample timers run exactly in RUNNING, the resume window timer exactly in SUSPENDED. -/
def HeadContext.TimersLegal (c : HeadContext) : Prop :=
  (c.segTimer.isSome = (c.state == .running)) ∧ (c.sampleTimer.isSome = (c.state == .running))
    ∧ (c.windowTimer.isSome = (c.state == .suspended))

/-- The wake timer runs exactly in WAKING, the status timer exactly in READY, the idle timer exactly in
READY with no head holding the generator; the rescue limit timer exactly while a head is in service. -/
def State.GenTimersLegal (s : State) (g : GenId) : Prop :=
  ((s.gen g).wakeTimer.isSome = ((s.gen g).state == .waking))
    ∧ ((s.gen g).statusTimer.isSome = ((s.gen g).state == .ready))
    ∧ ((s.gen g).idleTimer.isSome = (((s.gen g).state == .ready) && !s.genHeld g))
    ∧ ((s.gen g).limitTimer.isSome = (s.gen g).inService.isSome)

/-- Every timer runs only where it may. -/
def State.TimersLegal (s : State) : Prop :=
  (∀ h, (s.head h).ctx.TimersLegal) ∧ ∀ g, s.GenTimersLegal g

/-! ### Rescue (R97, R102, R103) -/

/-- The head is RUNNING in a SOAK. -/
def State.soaking (s : State) (h : HeadId) : Bool :=
  (s.head h).ctx.state == .running && (match s.segment h with
    | some (.soak ..) => true
    | _ => false)

/-- A head in service is bound to its generator, RUNNING in a SOAK and not pending; a pending head is
RUNNING in a SOAK; a rotation order holds the sixteen heads once each. -/
def State.RescueLegal (s : State) : Prop :=
  (∀ g h, (s.gen g).inService = some h →
      (s.head h).cfg.binding = some g ∧ s.soaking h = true ∧ (s.head h).rescueReq = false)
    ∧ (∀ h, (s.head h).rescueReq = true → s.soaking h = true)
    ∧ ∀ g, (s.gen g).rotation.Perm allHeads

/-! ### Temperatures and powers (R49, R56, R61, R63, R64) -/

/-- A present value is at most `m`. -/
def atMost (m : Nat) : Option Nat → Prop
  | none => True
  | some n => n ≤ m

/-- A suspend record's values are in range. -/
def SuspendRecord.Legal (r : SuspendRecord) : Prop :=
  atMost 12000 r.filtered ∧ atMost 12000 r.rampOrigin ∧ r.setpoint ≤ 12000 ∧ r.integrator ≤ 2500
    ∧ r.peak ≤ 12000

/-- A head's temperatures are within 0-12000, its integrator and demand within the ceiling of the segment
it is RUNNING in (both 0 in a COOL), and its demand is 0 outside RUNNING. -/
def State.HeatLegal (s : State) (h : HeadId) : Prop :=
  atMost 12000 (s.head h).hcu.filtered ∧ atMost 12000 (s.head h).ctx.rampOrigin
    ∧ (s.head h).ctx.peak ≤ 12000 ∧ (s.head h).hcu.setpoint ≤ 12000
    ∧ (s.head h).hcu.integrator ≤ 2500
    ∧ ((s.head h).ctx.state ≠ .running → (s.head h).hcu.demand = 0)
    ∧ ((s.head h).ctx.state = .running → ∀ g, s.segment h = some g →
        (s.head h).hcu.integrator ≤ g.ceiling ∧ (s.head h).hcu.demand ≤ g.ceiling)
    ∧ (∀ m, (s.head h).hcu.lastSample = some m → m.temp ≤ 12000 ∧ m.current ≤ 4000)
    ∧ ∀ q, (s.head h).ctx.suspendRec = some q → q.Legal

/-- Every head's values are in range. -/
def State.HeatsLegal (s : State) : Prop := ∀ h, s.HeatLegal h

/-- The joint figures stay within their widths (R21): energy, time above flow, rescue count. -/
def State.FiguresLegal (s : State) : Prop :=
  ∀ h, (s.head h).ctx.energy ≤ 4294967295 ∧ (s.head h).ctx.timeAboveFlow ≤ 4294967295
    ∧ (s.head h).ctx.rescueCount ≤ 65535

/-! ### Phase tables and exclusions (R75, R86) -/

/-- At most 32 entries, EMPTY at and beyond the length. -/
def PhaseTable.Legal (t : PhaseTable) : Prop :=
  t.length ≤ 32 ∧ ∀ i : Fin 32, t.length ≤ i.val → t.entries[i] = none

/-- A generator's tables are legal and its pointer names an entry of the active table, or there is none
where that table is empty. -/
def Generator.TablesLegal (x : Generator) : Prop :=
  x.active.Legal ∧ x.staged.Legal
    ∧ (match x.pointer with
       | none => x.active.length = 0
       | some i => i < x.active.length)

/-- The tables of both generators and the exclusion list are legal. -/
def State.TablesLegal (s : State) : Prop :=
  s.gens.a.TablesLegal ∧ s.gens.b.TablesLegal ∧ s.slots.exclusions.length ≤ 16
    ∧ (s.slots.exclusions.Pairwise fun p q => samePair p q = false)
    ∧ ∀ p ∈ s.slots.exclusions, p.1 ≠ p.2

/-! ### Configuration (R22, R140, R194, R110, R119) -/

/-- The ranges of the part configuration (R194). -/
def PartConfig.Legal (c : PartConfig) : Prop :=
  2 ≤ c.slotPeriod ∧ c.slotPeriod ≤ 20 ∧ c.concentrator ≤ 62 ∧ c.ioStation ≤ 62 ∧ c.stationA ≤ 62
    ∧ c.stationB ≤ 62 ∧ c.noticeStation ≤ 62 ∧ c.ratingA ≤ 2500 ∧ c.ratingB ≤ 2500
    ∧ c.vt < c.vf ∧ c.vf ≤ 1000 ∧ 50 ≤ c.wakeTimeout ∧ c.wakeTimeout ≤ 2000
    ∧ 100 ≤ c.idleDelay ∧ c.idleDelay ≤ 10000 ∧ 10 ≤ c.interlockTimeout ∧ c.interlockTimeout ≤ 200
    ∧ 50 ≤ c.rescueLimit ∧ c.rescueLimit ≤ 5000 ∧ 100 ≤ c.resumeWindow ∧ c.resumeWindow ≤ 30000

/-- The ranges of a head configuration (R22). -/
def HeadConfig.Legal (c : HeadConfig) : Prop :=
  c.priority ≤ 7 ∧ c.powerLimit ≤ 2500 ∧ c.couplingMin ≤ 4000 ∧ c.couplingPower ≤ 2500

/-- The part configuration, the head configurations and the slot clock are in range, and every kind of
fixed severity stands at ABORT in the policy (R140). -/
def State.ConfigLegal (s : State) : Prop :=
  s.mu.config.Legal ∧ (∀ h, (s.head h).cfg.Legal)
    ∧ (∀ k : FaultKind, k.fixedAbort = true → s.mu.policy[k.idx].severity = .abort)
    ∧ 2 ≤ s.slots.period ∧ s.slots.period ≤ 20 ∧ s.slots.timer ≤ s.slots.period

/-- A generator is OFF exactly while its station or its rating is 0; OFF leaves it without report,
voltage or cause; its budget is that of its recorded voltage (R110, R111, R119, R120). -/
def State.GenLegal (s : State) (g : GenId) : Prop :=
  ((s.gen g).state = .off ↔ s.mu.config.hasGen g = false)
    ∧ ((s.gen g).state = .off →
        (s.gen g).reported = none ∧ (s.gen g).bus = none ∧ (s.gen g).cause = .none)
    ∧ (s.gen g).budget = s.mu.config.budget g (s.gen g).bus
    ∧ ((s.gen g).state = .faulted → (s.gen g).cause ≠ .none)

/-- Both generators are legal. -/
def State.GensLegal (s : State) : Prop := ∀ g, s.GenLegal g

/-! ### Taking and answering a request -/

/-- A request of `r` is taken at its arrival: RST_N is high, no frame under way at a release is awaited,
the part is in normal operation, the request is not its own frame, the MU is ready and no other request
waits (R173, R180, R189, R192). -/
abbrev State.Takes (s : State) (r : ReqHead) : Prop :=
  s.rstHeld = false ∧ s.rp.skipFrame = false ∧ s.rp.station ≠ 0 ∧ s.rp.station ≠ 63
    ∧ r.source ≠ s.ownStation ∧ s.rp.replies.length < 4 ∧ s.mu.resetPending = false
    ∧ s.mu.requests = []

/-- The effective authority of `r` is ENGINEER (R191). -/
abbrev IsEngineer (r : ReqHead) : Prop := r.authority = 1 ∧ r.engEn = true

/-- A request of `r` is taken at its arrival with effective authority ENGINEER. -/
abbrev State.TakesEngineer (s : State) (r : ReqHead) : Prop := s.Takes r ∧ IsEngineer r

/-- `s` after the reply to a request of `r` (R174, R179, R186, R193): to its source, with its tag, the
command code, a status and data. ENG_EN stands at the level the request was taken at. -/
def State.answered (s : State) (r : ReqHead) (code : Byte) (st : Status) (data : List Byte) : State :=
  { s with
      engEn := r.engEn,
      rp := s.rp.placeReply
        ⟨mkFrame r.source s.ownStation 9 (enc16 r.tag ++ [code, st.code] ++ data), false⟩ }

/-! ### Taking a frame -/

/-- A frame from station `src` addressed to the part is consumed, where its kind accepts the configured
station `st` or, with `st` 0, any source (R173, R180, R181, R189). -/
abbrev State.Consumes (s : State) (src : Byte) (st : Nat) : Prop :=
  s.rstHeld = false ∧ s.rp.skipFrame = false ∧ s.rp.station ≠ 0 ∧ s.rp.station ≠ 63
    ∧ src ≠ s.ownStation ∧ (st = 0 ∨ st = src.toNat)

/-- A SAMPLE frame to the part (R178): head, sequence, temperature, coil current, quality, flags. -/
def State.sampleFrame (s : State) (src head seq : Byte) (tm cur : Word16) (q flags : Byte) :
    List Byte :=
  mkFrame s.ownStation src 1 ([head, seq] ++ enc16 tm ++ enc16 cur ++ [q, flags])

/-- A GENSTAT frame to the part (R178): generator, state, bus voltage, delivered power, slot, head. -/
def State.genstatFrame (s : State) (src gen st : Byte) (v power : Word16) (slot head : Byte) :
    List Byte :=
  mkFrame s.ownStation src 2 ([gen, st] ++ enc16 v ++ enc16 power ++ [slot, head])

/-! ### What a fault and a joint's end leave -/

/-- The Ring Port `rp` after a notice of `s` with this payload is made (R179, R186, R202). -/
def State.offered (s : State) (rp : RingPort) (payload : List Byte) : RingPort :=
  if s.mu.config.noticeStation = 0 then rp
  else rp.placeNotice
    ⟨mkFrame (byte s.mu.config.noticeStation) s.ownStation 10 payload, false⟩

/-- What a joint's end does to a generator's rescue service and idle timer (R35 steps 4 and 7, R103,
R116): `held` says that another head holds it. -/
def Generator.afterEnd (x : Generator) (h : HeadId) (mode : RescueMode) (bound held : Bool)
    (idleDelay : Nat) : Generator :=
  let y := if x.inService = some h then
      { x with inService := none, limitTimer := none,
               rotation := if mode = .rotating then x.rotation.filter (fun k => k != h) ++ [h]
                 else x.rotation }
    else x
  if bound && x.state == .ready && !held then { y with idleTimer := some idleDelay } else y

/-- Another head than `h` holds generator `g`. -/
def State.heldByOther (s : State) (g : GenId) (h : HeadId) : Bool :=
  allHeads.any fun k => k != h && s.holds k && ((s.head k).cfg.binding == some g)

/-- What the end of head `h`'s joint leaves (R35, R163); `rp` is the Ring Port before the JOINT_END
notice. -/
structure JointEnded (h : HeadId) (o : JointOutcome) (failed : Option (List Criterion))
    (kind : Option FaultKind) (rp : RingPort) (s t : State) : Prop where
  /-- Steps 2 and 3: the record. -/
  results : t.results = s.results ++ [
    { serial := (s.head h).ctx.serial, head := h, profile := (s.head h).ctx.profile.getD 0,
      revision := (s.head h).ctx.revision, outcome := o, failed := failed, kind := kind,
      peak := (s.head h).ctx.peak, timeAboveFlow := (s.head h).ctx.timeAboveFlow,
      joules := (s.head h).ctx.energy / 100, duration := s.timebase - (s.head h).ctx.jointStart,
      segsDone := (s.head h).ctx.segsDone, rescueCount := (s.head h).ctx.rescueCount,
      resumed := (s.head h).ctx.resumed, derated := (s.head h).ctx.derated,
      earlyRelease := (s.head h).ctx.earlyRelease, coolTimeout := (s.head h).ctx.coolTimeout }]
  /-- Steps 3 to 6: the head context. -/
  ctx : (t.head h).ctx =
    { (s.head h).ctx with
        state := if o = .fault then .faulted else .idle, lastOutcome := o, reservation := false,
        segTimer := none, sampleTimer := none, windowTimer := none, suspendRec := none }
  /-- Step 5: the demand. -/
  hcu : (t.head h).hcu = { (s.head h).hcu with demand := 0 }
  /-- Step 4: the rescue request. -/
  request : (t.head h).rescueReq = false
  /-- Step 4 and the idle timer, on each generator. -/
  gens : ∀ g, t.gen g = (s.gen g).afterEnd h (s.mu.config.mode g)
    ((s.head h).cfg.binding == some g) (s.heldByOther g h) s.mu.config.idleDelay
  /-- Step 7: the JOINT_END notice (R170), with the counts after the conversion; the kind as an optional
  field (log 35). -/
  ring : t.rp = s.offered rp
    (4 :: le32 (s.head h).ctx.serial.toNat ++ [byte h.val, o.code]
      ++ optBytes (fun k => [byte (FaultKind.idx k).val]) kind
      ++ [byte t.results.length, byte t.reservations, s.slots.number])
  /-- The head's configuration, deviation counters and inputs stay. -/
  kept : (t.head h).cfg = (s.head h).cfg ∧ (t.head h).deviations = (s.head h).deviations
    ∧ (t.head h).inputs = (s.head h).inputs

/-- What stays as it is through a head's own event: every other head, the profiles, the Management Unit,
the slot clock, the interlocks and the timebase. -/
structure OthersKept (h : HeadId) (s t : State) : Prop where
  heads : ∀ k, k ≠ h → t.head k = s.head k
  profiles : t.profiles = s.profiles
  mu : t.mu = s.mu
  slots : t.slots = s.slots
  interlocks : t.interlocks = s.interlocks
  clock : t.timebase = s.timebase ∧ t.rstHeld = s.rstHeld ∧ t.engEn = s.engEn ∧ t.pending = s.pending

/-- Entry of head `h` into SUSPENDED with a cause (R39, R40). -/
structure HeadSuspended (h : HeadId) (cause : SuspendCause) (s t : State) : Prop where
  state : (t.head h).ctx.state = .suspended
  record : (t.head h).ctx.suspendRec = some
    { cause := cause, segIndex := (s.head h).ctx.segIndex,
      elapsed := if (s.head h).ctx.state = .running then (s.timebase - (s.head h).ctx.segStart).toNat
        else (s.head h).ctx.entryOffset,
      rampOrigin := (s.head h).ctx.rampOrigin, setpoint := (s.head h).hcu.setpoint,
      filtered := (s.head h).hcu.filtered, integrator := (s.head h).hcu.integrator,
      energy := (s.head h).ctx.energy, timeAboveFlow := (s.head h).ctx.timeAboveFlow,
      peak := (s.head h).ctx.peak, rescueCount := (s.head h).ctx.rescueCount,
      inRescue := s.inRescue h, derated := (s.head h).ctx.derated, time := s.timebase }
  timers : (t.head h).ctx.segTimer = none ∧ (t.head h).ctx.sampleTimer = none
    ∧ (t.head h).ctx.windowTimer = some s.mu.config.resumeWindow
  hcu : (t.head h).hcu = { (s.head h).hcu with demand := 0 }
  rescue : (t.head h).rescueReq = false ∧ t.inRescue h = false
  /-- The reservation, the bound profile, the joint figures and the flags stay. -/
  joint : (t.head h).ctx =
    { (s.head h).ctx with
        state := (t.head h).ctx.state, suspendRec := (t.head h).ctx.suspendRec,
        segTimer := (t.head h).ctx.segTimer, sampleTimer := (t.head h).ctx.sampleTimer,
        windowTimer := (t.head h).ctx.windowTimer, suspendedOnce := (t.head h).ctx.suspendedOnce }
  results : t.results = s.results
  gens : ∀ g, t.gen g = (s.gen g).afterEnd h (s.mu.config.mode g) false false 0
  kept : (t.head h).cfg = (s.head h).cfg ∧ (t.head h).deviations = (s.head h).deviations
    ∧ (t.head h).inputs = (s.head h).inputs

/-- What the taking of an unmasked or masked fault `k` with action `act` records (R142, R143, R57; the peak in
the capture record is log 33). -/
structure FaultRecorded (h : HeadId) (k : FaultKind) (act : FaultAction) (s t : State) : Prop where
  status : ∀ j, j ∈ (t.head h).fr.status ↔ j = k ∨ j ∈ (s.head h).fr.status
  pointer : (t.head h).fr.pointer =
    if s.masked k then (s.head h).fr.pointer else some ((s.head h).fr.pointer.getD k)
  capture : (t.head h).fr.capture =
    if s.masked k = true ∨ (s.head h).fr.pointer ≠ none then (s.head h).fr.capture
    else some
      { kind := k, action := act, serial := (s.head h).ctx.serial,
        headState := (s.head h).ctx.state, segIndex := (s.head h).ctx.segIndex,
        elapsed := s.elapsed h,
        sample := (s.head h).hcu.lastSample.map fun p => ⟨p.seq, p.temp, p.current, p.quality⟩,
        filtered := (s.head h).hcu.filtered, setpoint := (s.head h).hcu.setpoint,
        demand := (s.head h).hcu.demand,
        peak := (s.head h).ctx.peak, time := s.timebase }

/-- The action a fault takes on a RUNNING or WAIT_GEN head, and one of fixed severity ABORT on a SUSPENDED head
too (R140, R145). -/
def State.actionOn (s : State) (h : HeadId) (k : FaultKind) : FaultAction :=
  if k.fixedAbort || s.mu.policy[k.idx].severity == .abort then .abort
  else if (s.head h).ctx.suspendedOnce then .escalated else .suspend

/-- The Ring Port after the HEAD_FAULT notice of a fault, which a masked kind does not make (R148, R149).
-/
def State.faultNoticed (s : State) (h : HeadId) (k : FaultKind) (act : FaultAction) : RingPort :=
  if s.masked k then s.rp
  else s.offered s.rp
    ([3, byte h.val, byte k.idx.val, act.code] ++ le32 (s.head h).ctx.serial.toNat
      ++ [flagByte (s.head h).fr.pointer.isNone,
          (match act with
           | .abort | .escalated => 4
           | .suspend => 3
           | .recorded => (s.head h).ctx.state.code), s.slots.number])

/-- A fault taken whole on a RUNNING or WAIT_GEN head, or one of fixed severity ABORT on a SUSPENDED head (R144,
R145): recorded, and the joint suspended or ended by it. -/
structure FaultActs (h : HeadId) (k : FaultKind) (s t : State) : Prop where
  recorded : FaultRecorded h k (s.actionOn h k) s t
  others : OthersKept h s t
  suspends : s.actionOn h k = .suspend →
    HeadSuspended h (.fault k) s t ∧ (t.head h).ctx.suspendedOnce = true
      ∧ t.rp = s.faultNoticed h k .suspend
  ends : s.actionOn h k ≠ .suspend →
    JointEnded h .fault none (some k) (s.faultNoticed h k (s.actionOn h k)) s t

/-! ### Turns of several heads in one event -/

/-- `t` is reached from `s` by the turns of the list, one after the other, first to last. -/
def Turns {α : Type} (turn : α → State → State → Prop) : List α → State → State → Prop
  | [], s, t => t = s
  | a :: l, s, t => ∃ u, turn a s u ∧ Turns turn l u t

/-- What the heads' turns in one event keep of the part, or only add to: the profiles, the Management Unit, the
slot clock, the interlocks and the timebase stay, results are added, and rescue places are only emptied. -/
structure PartKept (s t : State) : Prop where
  profiles : t.profiles = s.profiles
  mu : t.mu = s.mu
  slots : t.slots = s.slots
  interlocks : t.interlocks = s.interlocks
  clock : t.timebase = s.timebase ∧ t.rstHeld = s.rstHeld ∧ t.engEn = s.engEn ∧ t.pending = s.pending
  results : s.results <+: t.results
  service : ∀ g, (t.gen g).inService = (s.gen g).inService ∨ (t.gen g).inService = none

/-! ### What a sample does to a head (chapter 3) -/

/-- The sequence check accepts the number `seq` (R51): there is no reference, or the number lies 1 to 127
after it. -/
def Head.accepts (x : Head) (seq : Byte) : Bool :=
  match x.hcu.seqRef with
  | none => true
  | some ref => decide (1 ≤ (seq - ref).toNat ∧ (seq - ref).toNat < 128)

/-- A head's deviation counters after accepted sample `m`: SEQUENCE_GAP counted where the number lies 2 or more
after the reference (R51), WEAK by the quality (R52). -/
def Head.sampleCounts (x : Head) (m : Sample) : Vector Nat 11 :=
  let d := match x.hcu.seqRef with
    | some ref =>
      if 2 ≤ (m.seq - ref).toNat then x.deviations.set 0 (min (x.deviations[0] + 1) 65535)
      else x.deviations
    | none => x.deviations
  if m.quality = .weak then d.set 3 (min (d[3] + 1) 65535) else d

/-- The filtered temperature after sample `m` (R55, R56): the first usable sample sets it, a later one moves
it by its weight, one of quality NONE leaves it. -/
def Head.tempAfter (x : Head) (p : Params) (m : Sample) : Option Nat :=
  let w := if m.quality = .weak then max 1 (p.weight / 2) else p.weight
  match m.quality, x.hcu.filtered with
  | .none, f => f
  | _, none => some m.temp
  | _, some f =>
    some (if f ≤ m.temp then f + ((m.temp - f) * w + 8) / 16 else f - ((f - m.temp) * w + 8) / 16)

/-- A head after the sequence check and steps 1 to 5 of R54 (R51, R52, R55-R58, R60): `seg` is the segment it is
RUNNING in, and `none` outside RUNNING; `cap` is three slot periods. -/
def Head.sampled (x : Head) (seg : Option Segment) (p : Params) (m : Sample) (cap : Nat) : Head :=
  let tf := x.tempAfter p m
  { x with
      deviations := x.sampleCounts m,
      ctx := { x.ctx with
        rampOrigin := match seg, x.ctx.rampOrigin with
          | some (.ramp ..), none => if m.quality = .none then none else tf
          | _, o => o,
        peak := if m.quality = .none then x.ctx.peak else max x.ctx.peak (tf.getD 0),
        timeAboveFlow := match x.hcu.prevTime, tf with
          | some prev, some t =>
            if p.flowTemp ≤ t then
              min (x.ctx.timeAboveFlow + min (m.time - prev).toNat cap) 4294967295
            else x.ctx.timeAboveFlow
          | _, _ => x.ctx.timeAboveFlow },
      hcu := { x.hcu with filtered := tf, seqRef := some m.seq, lastSample := some m,
                          prevTime := some m.time } }

/-- The coupling-low count of a RUNNING head after a sample (R67). -/
def Head.lowCount (x : Head) (m : Sample) : Nat :=
  if x.ctx.served = true ∧ x.cfg.couplingMin ≠ 0 ∧ m.current < x.cfg.couplingMin then
    min (x.ctx.couplingLow + 1) 3
  else 0

/-- A RUNNING head after steps 7 and 8 of R54 (R33, R67); `three` is three slot periods. -/
def Head.checked (x : Head) (m : Sample) (three : Nat) : Head :=
  { x with ctx := { x.ctx with
      sampleTimer := if m.quality = .none then x.ctx.sampleTimer else some three,
      couplingLow := x.lowCount m, served := false } }

/-- The Heat Control Unit's values after one run of the law, on natural numbers: setpoint `sp`, filtered
temperature `tf`, ceiling `c` (R62-R64). -/
def Hcu.controlled (u : Hcu) (p : Params) (sp tf c : Nat) : Hcu :=
  let i := if (u.demand = c ∧ tf < sp) ∨ (u.demand = 0 ∧ sp < tf) then min u.integrator c
    else if tf ≤ sp then min (u.integrator + p.ki * (sp - tf) / 256) c
    else min (u.integrator - p.ki * (tf - sp) / 256) c
  { u with
      setpoint := sp, integrator := i,
      demand := if tf ≤ sp then min (p.kp * (sp - tf) / 16 + i) c
        else min (i - p.kp * (tf - sp) / 16) c }

/-! ### What the entry into a segment and the exit from one leave (R29, R30, R35, R65, R135) -/

/-- A head that has entered RUNNING in the segment `seg` of its segment index, at its entry offset (R29, R65);
`three` is three slot periods. An entry into a segment other than a SOAK withdraws the rescue request
(R105). -/
def Head.entered (x : Head) (seg : Segment) (now : Word32) (three : Nat) : Head :=
  let offset := x.ctx.entryOffset
  let ctx := { x.ctx with
    state := .running, entryOffset := 0, contEntry := false,
    segStart := now - BitVec.ofNat 32 offset, segTimer := some (max 1 (seg.length - offset)),
    sampleTimer := some three }
  match seg with
  | .ramp t rate _ _ c =>
    let origin := if x.ctx.contEntry then x.ctx.rampOrigin else x.hcu.filtered
    { x with
        ctx := { ctx with rampOrigin := origin },
        hcu := { x.hcu with
          integrator := min x.hcu.integrator c, demand := min x.hcu.demand c,
          setpoint := match origin with
            | some o => if o < t then min t (o + rate * offset / 1000) else t
            | none => x.hcu.setpoint },
        rescueReq := false }
  | .soak t _ c =>
    { x with
        ctx := ctx,
        hcu := { x.hcu with
          integrator := min x.hcu.integrator c, demand := min x.hcu.demand c, setpoint := t } }
  | .cool _ _ =>
    { x with ctx := ctx, hcu := { x.hcu with integrator := 0, demand := 0, setpoint := 0 },
             rescueReq := false }

/-- A head that has exited its segment into the segment `seg`, fresh (R29, R30): its segment index and its
segments completed have risen by one, and the entry is at offset 0. -/
def Head.inNext (x : Head) (seg : Segment) (now : Word32) (three : Nat) : Head :=
  let y := { x with
    ctx := { x.ctx with
      segIndex := x.ctx.segIndex + 1, segsDone := x.ctx.segsDone + 1, entryOffset := 0,
      contEntry := false },
    rescueReq := false }
  y.entered seg now three

/-- The criterion fails on the joint's figures and flags (R165). -/
def Recipe.FailedBy (rc : Recipe) (c : HeadContext) : Criterion → Prop
  | .minPeak => ∃ m, rc.criteria.minPeak = some m ∧ c.peak < m
  | .maxPeak => ∃ m, rc.criteria.maxPeak = some m ∧ m < c.peak
  | .minFlow => ∃ m, rc.criteria.minFlow = some m ∧ c.timeAboveFlow < m
  | .maxFlow => ∃ m, rc.criteria.maxFlow = some m ∧ m < c.timeAboveFlow
  | .minEnergy => ∃ m, rc.criteria.minEnergy = some m ∧ c.energy / 100 < m
  | .maxEnergy => ∃ m, rc.criteria.maxEnergy = some m ∧ m < c.energy / 100
  | .maxRescues => ∃ m, rc.criteria.maxRescues = some m ∧ m < c.rescueCount
  | .fullCool => rc.criteria.fullCool = true ∧ (c.earlyRelease = true ∨ c.coolTimeout = true)

/-- `s` with the rescue request and service of head `h` gone, and head `h` as given. -/
def State.leaving (s : State) (h : HeadId) (x : Head) : State :=
  { s.modHead h fun _ => x with
      gens := { a := s.gens.a.afterEnd h s.mu.config.modeA false false 0,
                b := s.gens.b.afterEnd h s.mu.config.modeB false false 0 } }

/-- What the exit of head `h` from its current segment leaves, under the recipe `rc` it runs (R30): the next
segment entered, with the fault of the entry test of R135 where that heats and the interlocks are not
satisfied; or, after the last, the joint ended normally, judged by the criteria in the order of R165 (R35,
R164). The JOINT_END notice's kind field is log 35. -/
structure SegmentExited (h : HeadId) (rc : Recipe) (s t : State) : Prop where
  enters : ∀ seg, rc.segments[(s.head h).ctx.segIndex + 1]? = some seg →
    let v := s.leaving h ((s.head h).inNext seg s.timebase (3 * s.slots.period))
    (seg.heats = false ∨ (s.verdict h = true ∧ s.latched h = false) → t = v)
    ∧ (seg.heats = true → s.latched h = true → FaultActs h .coolantLost v t)
    ∧ (seg.heats = true → s.latched h = false → s.verdict h = false →
        FaultActs h .interlockLost v t)
  ends : (s.head h).ctx.segIndex + 1 = rc.segments.length →
    ∃ failed : List Criterion,
      JointEnded h (if failed = [] then .accept else .reject)
        (if failed = [] then none else some failed) none s.rp
        (s.modHead h fun x =>
          { x with ctx := { x.ctx with segTimer := none, segsDone := x.ctx.segsDone + 1 } }) t
      ∧ OthersKept h s t ∧ (t.head h).fr = (s.head h).fr
      ∧ failed.Sublist [.minPeak, .maxPeak, .minFlow, .maxFlow, .minEnergy, .maxEnergy, .maxRescues,
          .fullCool]
      ∧ ∀ k, k ∈ failed ↔ rc.FailedBy (s.head h).ctx k

/-! ### What a generator's report and its changes of state leave (chapter 6) -/

/-- `s` after steps 1 to 3 of R117: a generator has reported state `r` and voltage `v` (R115, R119). -/
def State.reportRecorded (s : State) (g : GenId) (r : Reported) (v : Nat) : State :=
  let c := s.mu.config
  let volts := min v 1000
  s.modGen g fun x =>
    { x with
        reported := some r, bus := some volts,
        budget := if c.vf ≤ volts then c.rating g else if volts ≤ c.vt then 0
          else c.rating g * (volts - c.vt) / (c.vf - c.vt),
        statusTimer := if x.state = .ready then some (3 * s.slots.period) else x.statusTimer }

/-- `u` is `s` after steps 1 to 4 of R117: the report recorded, and its delivered power credited to the joint of
the drive history entry it echoes, or counted late or mismatched (R121). Where the history holds two entries
of the slot and head, the oldest is the one it echoes (log 34). -/
structure ReportTaken (g : GenId) (r : Reported) (v power : Nat) (slot : Byte) (hd : Option HeadId)
    (s u : State) : Prop where
  /-- No head or no power: nothing to credit. -/
  silent : hd = none ∨ power = 0 → u = s.reportRecorded g r v
  /-- No entry of that slot and head. -/
  unmatched : ∀ h, hd = some h → 1 ≤ power →
    (∀ x ∈ (s.gen g).history, ¬ (x.slot = slot ∧ x.head = h)) →
    u = (s.reportRecorded g r v).countDev h .energyMismatch
  /-- The entry's joint is the one the head holds. -/
  credited : ∀ h pre x post, hd = some h → 1 ≤ power → (s.gen g).history = pre ++ x :: post →
    x.slot = slot → x.head = h → (∀ y ∈ pre, ¬ (y.slot = slot ∧ y.head = h)) →
    s.holds h = true → (s.head h).ctx.serial = x.serial →
    u = (s.reportRecorded g r v).modHead h fun y =>
      { y with ctx := { y.ctx with
          energy := min (y.ctx.energy + min power 2500 * s.slots.period) 4294967295 } }
  /-- The head holds no joint, or another. -/
  late : ∀ h pre x post, hd = some h → 1 ≤ power → (s.gen g).history = pre ++ x :: post →
    x.slot = slot → x.head = h → (∀ y ∈ pre, ¬ (y.slot = slot ∧ y.head = h)) →
    s.holds h = false ∨ (s.head h).ctx.serial ≠ x.serial →
    u = (s.reportRecorded g r v).countDev h .lateEnergy

/-- Head `h` is bound to `g` and in WAIT_GEN or RUNNING: a fault of `g` reaches it (R122). -/
abbrev State.heatedBy (s : State) (g : GenId) (h : HeadId) : Prop :=
  (s.head h).cfg.binding = some g
    ∧ ((s.head h).ctx.state = .running ∨ (s.head h).ctx.state = .waitGen)

/-- `s` after steps 1 to 4 of R122 for generator `g`: FAULTED with its cause, its timers stopped, its rescue ended
(R103), and the GEN_STATE notice made (R124). -/
def State.faultEntered (s : State) (g : GenId) (cause : GenCause) : State :=
  { s.modGen g (fun x =>
      { x with
          state := .faulted, cause := cause, wakeTimer := none, idleTimer := none, statusTimer := none,
          inService := none,
          limitTimer := if x.inService = none then x.limitTimer else none,
          rotation := match x.inService with
            | some h => if s.mu.config.mode g = .rotating
                then x.rotation.filter (fun k => k != h) ++ [h] else x.rotation
            | none => x.rotation }) with
      rp := s.offered s.rp
        ([2, genCode g, (s.gen g).state.code, 4, cause.code] ++ optBytes le16 (s.gen g).bus
          ++ [s.slots.number]) }

/-- Generator `g` has entered FAULTED (R122): after the entry itself, with its GEN_STATE notice, the heads it heats,
and no other, take GENERATOR_FAULT whole, in ascending number. The fields after the first say what this leaves of
the generators, the other heads and the rest. -/
structure GenFaulted (g : GenId) (cause : GenCause) (s t : State) : Prop where
  turns : Turns (fun h a b => (s.heatedBy g h → FaultActs h .generatorFault a b)
      ∧ (¬ s.heatedBy g h → b = a)) allHeads (s.faultEntered g cause) t
  gen : t.gen g = (s.faultEntered g cause).gen g
  /-- The other generator stays, where its rescue place holds only a head bound to it. -/
  other : ∀ j, j ≠ g → (∀ h, (s.gen j).inService = some h → (s.head h).cfg.binding = some j) →
    t.gen j = s.gen j
  heads : ∀ h, ¬ s.heatedBy g h → t.head h = s.head h
  part : PartKept s t

/-- Head `h` waits for `g` (R113). -/
abbrev State.waitsFor (s : State) (g : GenId) (h : HeadId) : Prop :=
  (s.head h).cfg.binding = some g ∧ (s.head h).ctx.state = .waitGen

/-- Head `h`'s turn to enter RUNNING in the segment its index names (R29, R65), with the fault of the entry test of
R135 where that heats and the interlocks are not satisfied; without a segment, in states that no run reaches, it
has none (log 24). -/
structure EntryTurn (h : HeadId) (s t : State) : Prop where
  enters : ∀ seg, s.segment h = some seg →
    let x := (s.head h).entered seg s.timebase (3 * s.slots.period)
    let v := if seg.isSoak then s.modHead h fun _ => x else s.leaving h x
    (seg.heats = false ∨ (s.verdict h = true ∧ s.latched h = false) → t = v)
    ∧ (seg.heats = true → s.latched h = true → FaultActs h .coolantLost v t)
    ∧ (seg.heats = true → s.latched h = false → s.verdict h = false →
        FaultActs h .interlockLost v t)
  stays : s.segment h = none → t = s

/-- The WAKING generator `g` has entered READY (R113): the heads that waited for it, and no other, have their turns
to enter RUNNING, in ascending number (log 22); then the idle timer starts where no head holds the generator
(R116), and the GEN_STATE notice is made last (R124; its cause byte 0 is log 16). The fields after the first say
what this leaves of the generators, the heads and the rest. -/
structure GenReadied (g : GenId) (s t : State) : Prop where
  turns : ∃ w, Turns (fun h a b => (s.waitsFor g h → EntryTurn h a b)
        ∧ (¬ s.waitsFor g h → b = a)) allHeads
      (s.modGen g fun x =>
        { x with state := .ready, wakeTimer := none, statusTimer := some (3 * s.slots.period) }) w
    ∧ t = { w.modGen g (fun x =>
          if w.genHeld g then x else { x with idleTimer := some s.mu.config.idleDelay }) with
        rp := s.offered w.rp
          ([2, genCode g, 2, 3, 0] ++ optBytes le16 (s.gen g).bus ++ [s.slots.number]) }
  /-- READY, with its timers; its rescue place is the next field's. -/
  gen : t.gen g =
    { s.gen g with
        state := .ready, wakeTimer := none, statusTimer := some (3 * s.slots.period),
        idleTimer := if t.genHeld g then (s.gen g).idleTimer else some s.mu.config.idleDelay,
        inService := (t.gen g).inService, limitTimer := (t.gen g).limitTimer,
        rotation := (t.gen g).rotation }
  /-- The rescue places and the other generator stay, where no head that waits is in service. -/
  service : (∀ j h, (s.gen j).inService = some h → (s.head h).ctx.state ≠ .waitGen) →
    (t.gen g).inService = (s.gen g).inService ∧ (t.gen g).limitTimer = (s.gen g).limitTimer
      ∧ (t.gen g).rotation = (s.gen g).rotation ∧ ∀ j, j ≠ g → t.gen j = s.gen j
  released : ∀ h seg, s.waitsFor g h → s.segment h = some seg →
    seg.heats = false ∨ (s.verdict h = true ∧ s.latched h = false) →
    t.head h = (s.head h).entered seg s.timebase (3 * s.slots.period)
  heads : ∀ h, ¬ s.waitsFor g h → t.head h = s.head h
  part : PartKept s t

/-! ### What an interlock event leaves at a head (R132, R134) -/

/-- Head `h` has lost its joint to the fault `k`, and the kinds `ks` have entered its status. -/
def JointLost (h : HeadId) (k : FaultKind) (ks : List FaultKind) (s t : State) : Prop :=
  (t.head h).ctx.state = .faulted ∧ (t.head h).ctx.lastOutcome = .fault
    ∧ (t.head h).ctx.reservation = false
    ∧ (∀ j, j ∈ (t.head h).fr.status ↔ j ∈ ks ∨ j ∈ (s.head h).fr.status)
    ∧ ∃ q ∈ t.results, q.head = h ∧ q.serial = (s.head h).ctx.serial ∧ q.outcome = .fault
        ∧ q.kind = some k

/-- What an event of the Interlock Monitor does to head `h` beside its inputs, where the event is or is not a
coolant loss of its group and an interlock loss of its own (R132, R134, R145). -/
structure LossActs (h : HeadId) (coolant interlock : Prop) (s t : State) : Prop where
  /-- RUNNING in a RAMP or SOAK, or WAIT_GEN: the joint is lost, to the coolant first. -/
  heating : ((s.head h).ctx.state = .running ∧ s.inCool h = false) ∨ (s.head h).ctx.state = .waitGen →
    (coolant → JointLost h .coolantLost [.coolantLost] s t)
    ∧ (¬ coolant → interlock → JointLost h .interlockLost [.interlockLost] s t)
  /-- RUNNING in a COOL: released early, counted once. -/
  cooling : (s.head h).ctx.state = .running → s.inCool h = true → coolant ∨ interlock →
    t.head h =
      { s.head h with
          ctx := { (s.head h).ctx with earlyRelease := true }, inputs := (t.head h).inputs,
          deviations := (s.head h).deviations.set 8 (min ((s.head h).deviations[8] + 1) 65535) }
  /-- SUSPENDED: an interlock loss ends the joint, a coolant loss alone is recorded. -/
  suspended : (s.head h).ctx.state = .suspended →
    (interlock → ¬ coolant → JointLost h .interlockLost [.interlockLost] s t)
    ∧ (interlock → coolant → JointLost h .interlockLost [.coolantLost, .interlockLost] s t)
    ∧ (¬ interlock → coolant →
      t.head h = { s.head h with fr := (t.head h).fr, inputs := (t.head h).inputs }
        ∧ ∀ j, j ∈ (t.head h).fr.status ↔ j = .coolantLost ∨ j ∈ (s.head h).fr.status)
  /-- No loss, or no joint: nothing. -/
  kept : (¬ coolant ∧ ¬ interlock) ∨ s.holds h = false →
    t.head h = { s.head h with inputs := (t.head h).inputs }

/-! ### The order in which an interlock event acts (R127, R129, R132-R134) -/

/-- Fault `k` is taken against head `h` as a record only, which ends and suspends nothing (R134, R144, R145). -/
structure FaultNoted (h : HeadId) (k : FaultKind) (s t : State) : Prop where
  recorded : FaultRecorded h k .recorded s t
  head : t.head h = { s.head h with fr := (t.head h).fr }
  others : OthersKept h s t
  rest : t.results = s.results ∧ t.gens = s.gens ∧ t.rp = s.faultNoticed h k .recorded

/-- Head `h`'s turn at the loss `k`, COOLANT_LOST or INTERLOCK_LOST, by its state at that step (R132, R134);
`released` says that the event's coolant loss has already released its COOL early. -/
structure LossTurn (h : HeadId) (k : FaultKind) (released : Prop) (s t : State) : Prop where
  /-- RUNNING in a RAMP or SOAK, or WAIT_GEN: the fault, whole. -/
  heating : ((s.head h).ctx.state = .running ∧ s.inCool h = false) ∨ (s.head h).ctx.state = .waitGen →
    FaultActs h k s t
  /-- RUNNING in a COOL: released early, counted once. -/
  cooling : (s.head h).ctx.state = .running → s.inCool h = true →
    (released → t = s)
    ∧ (¬ released → t = s.modHead h fun x =>
        { x with ctx := { x.ctx with earlyRelease := true },
                 deviations := x.deviations.set 8 (min (x.deviations[8] + 1) 65535) })
  /-- SUSPENDED: an interlock loss is the fault, whole; a coolant loss is recorded. -/
  suspended : (s.head h).ctx.state = .suspended →
    (k = .interlockLost → FaultActs h k s t) ∧ (k = .coolantLost → FaultNoted h k s t)
  /-- No joint: nothing. -/
  kept : s.holds h = false → t = s

/-- The coolant loss of group `g` (R133): the latch is set; the COOLANT_LATCH notice is made where it was clear;
then the heads H(4g) to H(4g+3) have their turns. -/
def CoolantLost (g : GroupId) (s t : State) : Prop :=
  Turns (fun h => LossTurn h .coolantLost False) (allHeads.filter fun h => h.val / 4 = g.val)
    { s.modGroup g (fun x => { x with latch := true }) with
        rp := if (s.group g).latch = true then s.rp
          else s.offered s.rp
            [5, byte g.val, rawCode (s.group g).flow.raw, s.slots.number] } t

/-- From `v`, the part with its inputs brought up to date, to `t`: the coolant losses of the groups `lost` are
acted on, G0 to G3, and then the interlock losses `loses` of the heads, H0 to H15 (R127 steps 5 and 6, R129 steps
4 and 5). -/
def LossesActedOn (lost : GroupId → Prop) (loses : HeadId → Prop) (v t : State) : Prop :=
  ∃ u,
    Turns (fun g a b => (lost g → CoolantLost g a b) ∧ (¬ lost g → b = a)) [0, 1, 2, 3] v u
    ∧ Turns (fun h a b => (loses h → LossTurn h .interlockLost (lost (groupOf h)) a b)
        ∧ (¬ loses h → b = a)) allHeads u t

/-! ### Which head a slot feeds (R83-R85) -/

/-- The entry of the active table `j` places after the pointer, wrapping; with `j` 0 the phase entry (R76,
R85). -/
def Generator.entryAfter (x : Generator) (j : Nat) : Option HeadId :=
  match x.pointer with
  | none => none
  | some p => (x.active.entries[(p + j) % x.active.length]?).join

/-- What the selection for generator `x` (as it stands after the resolution) gives, where `ok` says which
heads it may feed and `soak` which are in a SOAK: the rescue head, unless an entry that may be fed is in a
SOAK (R83); else the phase entry (R84); else the first head after it in table order (R85); else none. -/
structure SlotServes (x : Generator) (ok soak : HeadId → Prop) (sel : Option (HeadId × SlotKind)) :
    Prop where
  rescue : ∀ h, sel = some (h, .rescue) ↔
    x.inService = some h ∧ ok h ∧ ∀ e, x.entryAfter 0 = some e → ok e → ¬ soak e
  phase : ∀ h, sel = some (h, .phase) ↔
    x.entryAfter 0 = some h ∧ ok h ∧ (soak h ∨ ∀ r, x.inService = some r → ¬ ok r)
  borrowed : ∀ h, sel = some (h, .borrowed) ↔
    (∀ e, x.entryAfter 0 = some e → ¬ ok e) ∧ (∀ r, x.inService = some r → ¬ ok r)
      ∧ ∃ j, 1 ≤ j ∧ j < x.active.length ∧ x.entryAfter j = some h ∧ ok h
        ∧ ∀ i k, 1 ≤ i → i < j → x.entryAfter i = some k → ¬ ok k

end Sys2Proof.Machine
end

