-- ==== Sys2Proof/Certificates/Slice0/Obligations.lean ====
section
/-! DEFINITION. The statements about the BX16 that the provers settle. Each docstring names the rules of spec/
it rests on, and the log entry where it rests on a choice of the model. -/

open Sys2Proof Sys2Proof.Machine

/-! ### The step, the clock, the resets -/

/-- A step takes the command at the front of the queue and runs it with the queue's rest; on an empty
queue the part idles. The queue is the model's own (log 1). -/
def Obligations.StepRunsFrontCommand : Prop :=
  (∀ (c : Instr) (rest : List Instr) (s : State), s.pending = c :: rest →
      step s = exec c { s with pending := rest })
    ∧ ∀ s : State, s.pending = [] → step s = .next s

/-- No command ends in a fault or a refusal, and none touches the queue of waiting commands (log 1, log
25). -/
def Obligations.EveryCommandCompletes : Prop :=
  ∀ (c : Instr) (s : State), ∃ t, exec c s = .next t ∧ t.pending = s.pending

/-- While RST_N is held low only a power-on reset and the release act; the release ends the hold, and a
frame under way at it is not received (R189; the rest is the model's reading, log 4 and log 5). -/
def Obligations.HeldResetIgnoresOtherEvents : Prop :=
  (∀ (c : Instr) (s : State), s.rstHeld = true → (∀ straps low, c ≠ .powerOnReset straps low) →
      (∀ f, c ≠ .rstNRelease f) → exec c s = .next s)
    ∧ (∀ (f : Bool) (s : State), s.rstHeld = true →
      exec (.rstNRelease f) s =
        .next { s with rstHeld := false, rp := { s.rp with skipFrame := f } })
    ∧ ∀ (bytes : List Byte) (e : Bool) (s : State), s.rstHeld = false → s.rp.skipFrame = true →
      exec (.frameArrival bytes e) s =
        .next { s with engEn := e, rp := { s.rp with skipFrame := false } }

/-- A power-on reset puts the whole part in its power-on state, with the straps read and the level of
RST_N the event gives; the level of ENG_EN and the waiting commands stay (R173, R201, log 4, log 6). The mark of
a frame not to be received is clear, with RST_N high too, which is the model's choice (log 39). -/
def Obligations.PowerOnResetGivesResetState : Prop :=
  ∀ (straps : BitVec 6) (low : Bool) (s : State),
    exec (.powerOnReset straps low) s =
      .next { State.reset with
                rstHeld := low, engEn := s.engEn, pending := s.pending,
                rp := { State.reset.rp with station := straps } }

/-- The values the manual gives for a power-on reset (R2, R3, R21, R22, R49, R73, R75, R86, R91, R96, R110,
R126, R139, R140, R142, R143, R155, R157, R160, R189, R194, R197, R201); the mark `contEntry` is the model's
own (log 11). -/
def Obligations.ResetGivesPowerOnValues : Prop :=
  let s := State.reset
  s.timebase = 0 ∧ s.mu.cold = true ∧ s.mu.resetPending = false ∧ s.mu.requests = []
    ∧ s.mu.config =
      { slotPeriod := 5, concentrator := 0, ioStation := 0, stationA := 0, stationB := 0,
        noticeStation := 0, ratingA := 0, ratingB := 0, vt := 460, vf := 540, wakeTimeout := 300,
        idleDelay := 2000, interlockTimeout := 30, rescueLimit := 400, resumeWindow := 5000,
        modeA := .fixed, modeB := .fixed }
    ∧ (∀ k : FaultKind, s.mu.policy[k.idx].masked = false
        ∧ s.mu.policy[k.idx].severity =
          (match k with
           | .sensorLost | .segmentOvertime | .generatorFault => .suspend
           | _ => .abort))
    ∧ (∀ p, s.profile p = ⟨none, false, 0⟩)
    ∧ (∀ h, (s.head h).ctx =
          { state := .idle, serial := 0, profile := none, revision := 0, segIndex := 0,
            entryOffset := 0, segStart := 0, rampOrigin := none, jointStart := 0, peak := 0,
            timeAboveFlow := 0, energy := 0, rescueCount := 0, segsDone := 0, derated := false,
            earlyRelease := false, coolTimeout := false, resumed := false, suspendedOnce := false,
            lastOutcome := .none, reservation := false, suspendRec := none, served := false,
            couplingLow := 0, segTimer := none, sampleTimer := none, windowTimer := none,
            contEntry := false }
        ∧ (s.head h).cfg =
          { binding := none, priority := 7, masked := false, powerLimit := 2500, couplingMin := 0,
            couplingPower := 500, polPart := .activeOn, polClamp := .activeOn, polCoil := .activeOn,
            enabled := true }
        ∧ (s.head h).hcu =
          { filtered := none, setpoint := 0, integrator := 0, demand := 0, seqRef := none,
            lastSample := none, prevTime := none }
        ∧ (s.head h).fr = ⟨[], none, none⟩ ∧ (∀ d : Fin 11, (s.head h).deviations[d] = 0)
        ∧ (s.head h).inputs = ⟨⟨none, false, false⟩, ⟨none, false, false⟩, ⟨none, false, false⟩⟩
        ∧ (s.head h).rescueReq = false)
    ∧ (∀ g, (s.gen g).state = .off ∧ (s.gen g).reported = none ∧ (s.gen g).bus = none
        ∧ (s.gen g).budget = 0 ∧ (s.gen g).cause = .none ∧ (s.gen g).wakeTimer = none
        ∧ (s.gen g).idleTimer = none ∧ (s.gen g).statusTimer = none ∧ (s.gen g).limitTimer = none
        ∧ (s.gen g).active.length = 0 ∧ (s.gen g).staged.length = 0 ∧ (s.gen g).pointer = none
        ∧ (∀ i : Fin 32, (s.gen g).active.entries[i] = none ∧ (s.gen g).staged.entries[i] = none)
        ∧ (s.gen g).stagedDiffers = false ∧ (s.gen g).loadPending = false ∧ (s.gen g).history = []
        ∧ (s.gen g).inService = none ∧ (s.gen g).rotation = allHeads)
    ∧ s.slots.timer = 5 ∧ s.slots.number = 0 ∧ s.slots.exclusions = []
    ∧ (∀ g, s.group g = ⟨⟨none, false, false⟩, false⟩) ∧ s.interlocks.frameTimer = none
    ∧ s.interlocks.timeouts = 0 ∧ s.results = [] ∧ s.reservations = 0 ∧ s.faultN = true
    ∧ s.rp.drive = [] ∧ s.rp.forward = [] ∧ s.rp.replies = [] ∧ s.rp.notices = []
    ∧ s.rp.port = none ∧ ∀ c : Fin 9, s.rp.counters[c] = 0

/-- R1: the timebase is 0 at a power-on reset, goes up by one at each millisecond and at nothing else,
wraps from 4,294,967,295 to 0, runs on through a soft reset, and its differences, and readings less a
duration, are taken modulo 2^32. -/
def Obligations.TimebaseCountsMilliseconds : Prop :=
  State.reset.timebase = 0
    ∧ (∀ straps low (s : State), ∃ t, exec (.powerOnReset straps low) s = .next t ∧ t.timebase = 0)
    ∧ (∀ s : State, s.rstHeld = false →
        ∃ t, exec .timebaseTick s = .next t ∧ t.timebase = s.timebase + 1
          ∧ (s.timebase = 4294967295 → t.timebase = 0))
    ∧ (∀ (c : Instr) (s : State), c ≠ .timebaseTick → (∀ straps low, c ≠ .powerOnReset straps low) →
        ∃ t, exec c s = .next t ∧ t.timebase = s.timebase)
    ∧ (∀ (s : State) (r : Word32),
        s.since r = (s.timebase.toNat + 4294967296 - r.toNat) % 4294967296)
    ∧ ∀ (x : Head) (seg : Segment) (now : Word32) (n : Nat), x.ctx.entryOffset < 4294967296 →
        (x.enter seg now n).ctx.segStart.toNat =
          (now.toNat + 4294967296 - x.ctx.entryOffset) % 4294967296

/-- A tick takes one millisecond from every running timer, down to 0, and changes nothing else but the
timebase (R1; that an expiry is a command of its own is the model's choice, log 2 and log 3). -/
def Obligations.TickCountsEveryTimerDown : Prop :=
  ∀ s : State, s.rstHeld = false →
    exec .timebaseTick s = .next
      { s with
          timebase := s.timebase + 1,
          heads := s.heads.map fun x =>
            { x with ctx :=
                { x.ctx with segTimer := x.ctx.segTimer.map (· - 1),
                             sampleTimer := x.ctx.sampleTimer.map (· - 1),
                             windowTimer := x.ctx.windowTimer.map (· - 1) } },
          gens :=
            { a := { s.gens.a with wakeTimer := s.gens.a.wakeTimer.map (· - 1),
                                   idleTimer := s.gens.a.idleTimer.map (· - 1),
                                   statusTimer := s.gens.a.statusTimer.map (· - 1),
                                   limitTimer := s.gens.a.limitTimer.map (· - 1) },
              b := { s.gens.b with wakeTimer := s.gens.b.wakeTimer.map (· - 1),
                                   idleTimer := s.gens.b.idleTimer.map (· - 1),
                                   statusTimer := s.gens.b.statusTimer.map (· - 1),
                                   limitTimer := s.gens.b.limitTimer.map (· - 1) } },
          slots := { s.slots with timer := s.slots.timer - 1 },
          interlocks := { s.interlocks with
            frameTimer := s.interlocks.frameTimer.map (· - 1) } }

/-- The end of the send of the reply that carries the reset mark is the soft reset: every block takes its
soft-reset state in the one event, and what the table of R201 keeps is kept (R24, R75, R81, R94, R96, R110,
R126, R158, R171, R187, R189, R201; the row SOFT_RESET and PORT_SEND_END are that same event, log 29). -/
def Obligations.SoftResetAtMarkedReplyEnd : Prop :=
  ∀ (s : State) (f : TxFrame), s.rstHeld = false → s.rp.port = some f → f.resetMark = true →
    ∃ t, exec .softReset s = .next t
      ∧ (∀ e, exec (.portSendEnd e) s = .next { t with engEn := e })
      ∧ t.timebase = s.timebase ∧ t.engEn = s.engEn ∧ t.rstHeld = false ∧ t.profiles = s.profiles
      ∧ t.mu = { requests := [], config := s.mu.config, policy := s.mu.policy, cold := true,
                 resetPending := false }
      ∧ t.slots = { timer := s.mu.config.slotPeriod, period := s.mu.config.slotPeriod, number := 0,
                    exclusions := s.slots.exclusions }
      ∧ t.rp = { station := s.rp.station, skipFrame := s.rp.skipFrame, drive := [], forward := [],
                 replies := [], notices := [], port := none, counters := Vector.replicate 9 0 }
      ∧ t.results = [] ∧ t.reservations = 0 ∧ t.faultN = true
      ∧ t.interlocks.frameTimer = none ∧ t.interlocks.timeouts = 0
      ∧ (∀ g, t.group g = ⟨⟨none, false, false⟩, false⟩)
      ∧ (∀ h, t.head h =
          { State.reset.head h with
              cfg := (s.head h).cfg,
              ctx := { (State.reset.head h).ctx with
                state := if (s.head h).cfg.enabled then .idle else .disabled } })
      ∧ ∀ g, t.gen g =
          { State.reset.gen g with
              state := if s.mu.config.station g ≠ 0 ∧ s.mu.config.rating g ≠ 0 then .standby
                else .off,
              active := (s.gen g).active, staged := (s.gen g).staged,
              stagedDiffers := (s.gen g).stagedDiffers,
              pointer := if (s.gen g).active.length = 0 then none
                else some ((s.gen g).active.length - 1) }

/-! ### The ring -/

/-- The check value is the register of R175: all ones at first, moved by each byte's eight bits, least
significant first; on the nine characters 1 to 9 it is 4B37 hexadecimal, the value published for this CRC
(from outside the spec). A frame the part builds is its fields, its payload and the check, low byte first;
it has 6 + length bytes, passes the check of a receiver and reads back as the fields it was built from (R174,
R175, R180). -/
def Obligations.OriginatedFrameReadsBack : Prop :=
  crc [] = 0xFFFF#16
  ∧ (∀ (bs : List Byte) (b : Byte),
      let bit := fun (r : BitVec 16) (i : Nat) =>
        if r.getLsbD 0 = b.getLsbD i then r >>> 1 else (r >>> 1) ^^^ 0xA001#16
      crc (bs ++ [b]) = bit (bit (bit (bit (bit (bit (bit (bit (crc bs) 0) 1) 2) 3) 4) 5) 6) 7)
  ∧ crc [0x31, 0x32, 0x33, 0x34, 0x35, 0x36, 0x37, 0x38, 0x39] = 0x4B37#16
  ∧ ∀ (dst src kind : Byte) (payload : List Byte), payload.length ≤ 248 →
    let check := crc ([dst, src, kind, byte payload.length] ++ payload)
    mkFrame dst src kind payload =
        [dst, src, kind, byte payload.length] ++ payload
          ++ [check.extractLsb' 0 8, check.extractLsb' 8 8]
      ∧ (mkFrame dst src kind payload).length = 6 + payload.length
      ∧ crcMatches (mkFrame dst src kind payload) = true
      ∧ fieldsOf (mkFrame dst src kind payload) =
          some ⟨dst, src, kind, byte payload.length, payload⟩

/-- What reception does with a frame, by the first check of R180 that fails, and with a foreign frame that
passes; the second check's cases on a frame of any size whose check field matches (R173, R176, R180, R181).
-/
def Obligations.ReceptionChecksInOrder : Prop :=
  ∀ (s : State) (e : Bool), s.rstHeld = false → s.rp.skipFrame = false →
    (∀ bytes, bytes.length < 6 ∨ crcMatches bytes = false →
      exec (.frameArrival bytes e) s = .next ({ s with engEn := e }.countPort .crcError))
    ∧ (∀ (dst src kind len : Byte) (rest : List Byte),
        let bytes := dst :: src :: kind :: len :: rest
        6 ≤ bytes.length → crcMatches bytes = true →
        248 < len.toNat ∨ bytes.length ≠ 6 + len.toNat ∨ 63 < dst.toNat →
      exec (.frameArrival bytes e) s = .next ({ s with engEn := e }.countPort .malformed))
    ∧ ∀ (dst src kind : Byte) (payload : List Byte), payload.length ≤ 248 →
      let f := mkFrame dst src kind payload
      let n := payload.length
      let transparent := s.rp.station = 0 ∨ s.rp.station = 63
      let wrong := ((kind = 1 ∨ kind = 2) ∧ n ≠ 8) ∨ (kind = 3 ∧ n ≠ 7) ∨ (kind = 4 ∧ n < 4)
      (63 < dst.toNat →
        exec (.frameArrival f e) s = .next ({ s with engEn := e }.countPort .malformed))
      ∧ (dst.toNat ≤ 63 → transparent ∨ (dst ≠ s.ownStation ∧ src ≠ s.ownStation) →
        exec (.frameArrival f e) s = .next { s with engEn := e, rp := s.rp.placeForward f })
      ∧ (¬ transparent → dst = s.ownStation → wrong →
        exec (.frameArrival f e) s = .next ({ s with engEn := e }.countPort .malformed))
      ∧ (dst.toNat ≤ 63 → ¬ transparent → src = s.ownStation → ¬ (dst = s.ownStation ∧ wrong) →
        exec (.frameArrival f e) s = .next ({ s with engEn := e }.countPort .returned))
      ∧ (¬ transparent → dst = s.ownStation → src ≠ s.ownStation →
          kind ≠ 1 → kind ≠ 2 → kind ≠ 3 → kind ≠ 4 →
        exec (.frameArrival f e) s = .next ({ s with engEn := e }.countPort .unknownKind))
      ∧ (¬ transparent → dst = s.ownStation → src ≠ s.ownStation →
          (kind = 1 ∧ n = 8 ∧ s.mu.config.concentrator ≠ 0 ∧ s.mu.config.concentrator ≠ src.toNat)
            ∨ (kind = 3 ∧ n = 7 ∧ s.mu.config.ioStation ≠ 0 ∧ s.mu.config.ioStation ≠ src.toNat)
            ∨ (kind = 2 ∧ n = 8 ∧ ∃ g, payload.head? = some (genCode g)
              ∧ s.mu.config.station g ≠ 0 ∧ s.mu.config.station g ≠ src.toNat) →
        exec (.frameArrival f e) s = .next ({ s with engEn := e }.countPort .foreignSource))

/-- How a frame enters a transmit queue, begins at once on a free port with that queue empty, replaces an
unsent DRIVE frame or is dropped and counted, a reply never dropped; and which frame the port sends next
(R92, R183, R184, R185, R193).
The clauses on the send's end are for an unmarked frame. -/
def Obligations.PortSendsByPreference : Prop :=
  (∀ (rp : RingPort) (bytes : List Byte),
    (24 ≤ rp.forward.length → rp.placeForward bytes = rp.count .forwardOverrun)
    ∧ (rp.port = none → rp.forward = [] →
        rp.placeForward bytes = { rp with port := some ⟨bytes, false⟩ })
    ∧ (rp.forward.length < 24 → rp.port ≠ none ∨ rp.forward ≠ [] →
        rp.placeForward bytes = { rp with forward := rp.forward ++ [⟨bytes, false⟩] }))
  ∧ (∀ (rp : RingPort) (f : TxFrame),
    (16 ≤ rp.notices.length → rp.placeNotice f = rp.count .noticeDropped)
    ∧ (rp.port = none → rp.notices = [] → rp.placeNotice f = { rp with port := some f })
    ∧ (rp.notices.length < 16 → rp.port ≠ none ∨ rp.notices ≠ [] →
        rp.placeNotice f = { rp with notices := rp.notices ++ [f] }))
  ∧ (∀ (rp : RingPort) (f : TxFrame),
    (rp.port = none → rp.replies = [] → rp.placeReply f = { rp with port := some f })
    ∧ (rp.port ≠ none ∨ rp.replies ≠ [] →
        rp.placeReply f = { rp with replies := rp.replies ++ [f] }))
  ∧ (∀ (rp : RingPort) (g : GenId) (f : TxFrame),
    (∀ pre old post, rp.drive = pre ++ (g, old) :: post → (∀ p ∈ pre ++ post, p.1 ≠ g) →
        rp.placeDrive g f =
          ({ rp with drive := pre ++ (g, f) :: post } : RingPort).count .driveReplaced)
    ∧ (rp.port = none → rp.drive = [] → rp.placeDrive g f = { rp with port := some f })
    ∧ ((∀ p ∈ rp.drive, p.1 ≠ g) → rp.port ≠ none ∨ rp.drive ≠ [] →
        rp.placeDrive g f = { rp with drive := rp.drive ++ [(g, f)] }))
  ∧ ∀ (s : State) (e : Bool) (cur : TxFrame), s.rstHeld = false → s.rp.port = some cur →
      cur.resetMark = false →
    (∀ p rest, s.rp.drive = p :: rest →
      exec (.portSendEnd e) s =
        .next { s with engEn := e, rp := { s.rp with port := some p.2, drive := rest } })
    ∧ (∀ f rest, s.rp.drive = [] → s.rp.forward = f :: rest →
      exec (.portSendEnd e) s =
        .next { s with engEn := e, rp := { s.rp with port := some f, forward := rest } })
    ∧ (∀ f rest, s.rp.drive = [] → s.rp.forward = [] → s.rp.replies = f :: rest →
        s.mu.requests = [] ∨ s.mu.resetPending = true →
      exec (.portSendEnd e) s =
        .next { s with engEn := e, rp := { s.rp with port := some f, replies := rest } })
    ∧ (∀ f rest, s.rp.drive = [] → s.rp.forward = [] → s.rp.replies = [] →
        s.rp.notices = f :: rest →
      exec (.portSendEnd e) s =
        .next { s with engEn := e, rp := { s.rp with port := some f, notices := rest } })
    ∧ (s.rp.drive = [] → s.rp.forward = [] → s.rp.replies = [] → s.rp.notices = [] →
      exec (.portSendEnd e) s = .next { s with engEn := e, rp := { s.rp with port := none } })

/-! ### Requests in general -/

/-- A management row is the arrival of its request's frame: the receive checks, the queueing and the
reading of every argument byte give the row's own effect (R174-R178, R180, R182, R190; log 8). -/
def Obligations.RowEqualsFrameArrival : Prop :=
  ∀ (c : Instr) (s : State) (r : ReqHead) (code : Byte) (args : List Byte),
    c.request = some (r, code, args) → c.wellFormed = true →
    exec c s =
      exec (.frameArrival
        (mkFrame s.ownStation r.source 4 (enc16 r.tag ++ [r.authority, code] ++ args)) r.engEn) s

/-- A request that finds the queue full is dropped and counted; one that finds the MU not ready or others
waiting is appended and waits; and one that waits is taken, judged by the state then, when a reply begins
to leave (R182, R191, R192). -/
def Obligations.RequestsWaitInOrder : Prop :=
  (∀ (c : Instr) (s : State) (r : ReqHead) (code : Byte) (args : List Byte),
    c.request = some (r, code, args) → s.rstHeld = false → s.rp.skipFrame = false →
    s.rp.station ≠ 0 → s.rp.station ≠ 63 → r.source ≠ s.ownStation →
    (4 ≤ s.mu.requests.length →
      exec c s = .next ({ s with engEn := r.engEn }.countPort .requestOverflow))
    ∧ (s.mu.requests.length < 4 →
        4 ≤ s.rp.replies.length ∨ s.mu.resetPending = true ∨ s.mu.requests ≠ [] →
      exec c s = .next
        { s with
            engEn := r.engEn,
            mu := { s.mu with requests :=
              s.mu.requests ++ [⟨r.source, r.tag, r.authority, code, args⟩] } }))
  ∧ ∀ (s : State) (e : Bool) (cur f : TxFrame) (rest : List TxFrame) (q : Request)
      (qs : List Request), s.rstHeld = false → s.rp.port = some cur → cur.resetMark = false →
    s.rp.drive = [] → s.rp.forward = [] → s.rp.replies = f :: rest → s.mu.requests = q :: qs →
    s.mu.resetPending = false →
    exec (.portSendEnd e) s = .next
      (carryOut q
        { s with
            engEn := e, rp := { s.rp with port := some f, replies := rest },
            mu := { s.mu with requests := qs } })

/-- An engineer command taken with effective authority OPERATOR is answered DENIED, and a request whose
command code is not in the table UNKNOWN_COMMAND under either authority, both whatever the arguments; and a
request whose arguments break off early or run on past those of a well-formed one of its code is answered
BAD_ARGUMENT; all with no other effect (R190, R191). Of the wrong sizes LOCK and UNLOCK PROFILE are left out,
which have two (log 19), and WRITE FAULT POLICY has the one size of nine entries (log 13). -/
def Obligations.DeniedAndUnknownCommands : Prop :=
  (∀ (c : Instr) (s : State) (r : ReqHead) (code : Byte) (args : List Byte),
    c.request = some (r, code, args) → 32 ≤ code.toNat → code.toNat ≤ 44 → s.Takes r →
    ¬ IsEngineer r → exec c s = .next (s.answered r code .denied []))
  ∧ (∀ (s : State) (r : ReqHead) (code : Byte) (args : List Byte), s.Takes r →
    commandCodes.contains code.toNat = false →
    exec (.unknownCommand r code args) s = .next (s.answered r code .unknownCommand []))
  ∧ ∀ (c : Instr) (s : State) (r : ReqHead) (code : Byte) (args wrong : List Byte),
    c.request = some (r, code, args) → c.wellFormed = true →
    commandCodes.contains code.toNat = true → code ≠ 34 → code ≠ 35 →
    (code = 41 → args.length = 18) →
    wrong ≠ args → wrong <+: args ∨ args <+: wrong → wrong.length ≤ 244 →
    s.Takes r → (32 ≤ code.toNat → IsEngineer r) →
    exec (.frameArrival
      (mkFrame s.ownStation r.source 4 (enc16 r.tag ++ [r.authority, code] ++ wrong)) r.engEn) s =
      .next (s.answered r code .badArgument [])

/-- While ENG_EN is low no frame, request or end of a send changes a profile record, the part
configuration, the fault policy, the exclusion list, a head configuration or a staged phase table: these
are written by engineer commands only (R190, R191 and the rules of those commands). -/
def Obligations.EngineeringStateNeedsEngEn : Prop :=
  ∀ (c : Instr) (s t : State), exec c s = .next t → c.engLevel = some false →
    t.profiles = s.profiles ∧ t.mu.config = s.mu.config ∧ t.mu.policy = s.mu.policy
      ∧ t.slots.exclusions = s.slots.exclusions ∧ (∀ h, (t.head h).cfg = (s.head h).cfg)
      ∧ ∀ g, (t.gen g).staged = (s.gen g).staged ∧ (t.gen g).stagedDiffers = (s.gen g).stagedDiffers

/-! ### Reads -/

/-- READ STATUS, READ CONFIG and READ COUNTERS answer with the state as it stands at the taking and change
nothing; a page that does not exist is BAD_ARGUMENT (R198, R199, R125, R138, R188). FAULT_N, which READ STATUS
carries, is low exactly where a head or a generator is FAULTED (R157), and a head's verdict is SATISFIED exactly
where its three inputs are (R130). The byte layout of the fields follows log 14, 17, 30 and 36. -/
def Obligations.PartReadsAnswerAndKeepState : Prop :=
  (∀ s : State,
    (s.faultN = false ↔ (∃ h, (s.head h).ctx.state = .faulted) ∨ ∃ g, (s.gen g).state = .faulted)
    ∧ ∀ h, s.verdict h = true ↔ (s.head h).inputs.part.satisfied = true
        ∧ (s.head h).inputs.clamp.satisfied = true ∧ (s.head h).inputs.coil.satisfied = true)
  ∧ ∀ (s : State) (r : ReqHead) (page : Byte), s.Takes r →
    (page = 0 → exec (.readStatus r page) s = .next (s.answered r 1 .ok
      ([0, flagByte s.mu.cold, s.ownStation, flagByte r.engEn, flagByte s.faultN, s.slots.number]
        ++ s.genStatusBytes .a ++ s.genStatusBytes .b
        ++ allGroups.flatMap (fun g =>
            [rawCode (s.group g).flow.raw, satisfiedCode (s.group g).flow.satisfied,
             flagByte (s.group g).flow.mark, flagByte (s.group g).latch])
        ++ optBytes le16 s.interlocks.frameTimer
        ++ [byte s.results.length, byte s.reservations,
            byte (48 - s.results.length - s.reservations)]
        ++ [byte s.rp.drive.length, byte s.rp.forward.length, byte s.rp.replies.length,
            byte s.rp.notices.length, byte s.mu.requests.length])))
    ∧ (page = 1 → exec (.readStatus r page) s = .next (s.answered r 1 .ok
      (1 :: ([0, 1, 2, 3, 4, 5, 6, 7] : List HeadId).flatMap fun h => (s.head h).statusBytes)))
    ∧ (page = 2 → exec (.readStatus r page) s = .next (s.answered r 1 .ok
      (2 :: ([8, 9, 10, 11, 12, 13, 14, 15] : List HeadId).flatMap fun h =>
        (s.head h).statusBytes)))
    ∧ (3 ≤ page.toNat → exec (.readStatus r page) s = .next (s.answered r 1 .badArgument []))
    ∧ exec (.readConfig r) s = .next (s.answered r 2 .ok
      (s.ownStation :: s.mu.config.bytes
        ++ FaultKind.all.flatMap fun k =>
            [maskCode s.mu.policy[k.idx].masked, s.mu.policy[k.idx].severity.code]))
    ∧ (page = 0 → exec (.readCounters r page) s = .next (s.answered r 3 .ok
      (0 :: s.rp.counters.toList.flatMap le16 ++ le16 s.interlocks.timeouts
        ++ ([0, 1, 2, 3, 4, 5, 6, 7] : List HeadId).flatMap fun h =>
            (s.head h).deviations.toList.flatMap le16)))
    ∧ (page = 1 → exec (.readCounters r page) s = .next (s.answered r 3 .ok
      (1 :: ([8, 9, 10, 11, 12, 13, 14, 15] : List HeadId).flatMap fun h =>
            (s.head h).deviations.toList.flatMap le16)))
    ∧ (2 ≤ page.toNat → exec (.readCounters r page) s = .next (s.answered r 3 .badArgument []))

/-- READ PROFILE returns state, lock and revision, and a VALID record's contents; READ PHASES the chosen
table with the scheduler's items. Neither changes anything; operands out of range are BAD_ARGUMENT (R20,
R93). -/
def Obligations.ProfileAndPhaseReadsKeepState : Prop :=
  ∀ (s : State) (r : ReqHead), s.Takes r →
    (∀ p : ProfileId, (s.profile p).recipe = none →
      exec (.readProfile r (byte p.val)) s = .next (s.answered r 4 .ok
        ([0, flagByte (s.profile p).locked] ++ enc16 (s.profile p).revision)))
    ∧ (∀ (p : ProfileId) (q : Recipe), (s.profile p).recipe = some q →
      exec (.readProfile r (byte p.val)) s = .next (s.answered r 4 .ok
        ([1, flagByte (s.profile p).locked] ++ enc16 (s.profile p).revision
          ++ (le16 q.params.flowTemp ++ le16 q.params.maxTemp
            ++ [byte q.params.weight, byte q.params.kp, byte q.params.ki]
            ++ le16 q.params.deficitBand ++ le16 q.params.recoverBand
            ++ [byte q.segments.length] ++ q.segments.flatMap Segment.bytes ++ q.criteria.bytes))))
    ∧ (∀ b : Byte, 32 ≤ b.toNat →
      exec (.readProfile r b) s = .next (s.answered r 4 .badArgument []))
    ∧ (∀ g : GenId,
      let rest := [flagByte (s.gen g).stagedDiffers, flagByte (s.gen g).loadPending, s.slots.number]
        ++ le16 s.slots.period ++ exclusionBytes s.slots.exclusions ++ historyBytes (s.gen g).history
      exec (.readPhases r (genCode g) 0) s = .next (s.answered r 5 .ok
        ((s.gen g).active.bytes ++ optBytes (fun n => [byte n]) (s.gen g).pointer ++ rest))
      ∧ exec (.readPhases r (genCode g) 1) s =
          .next (s.answered r 5 .ok ((s.gen g).staged.bytes ++ rest)))
    ∧ ∀ g t : Byte, 2 ≤ g.toNat ∨ 2 ≤ t.toNat →
      exec (.readPhases r g t) s = .next (s.answered r 5 .badArgument [])

/-- READ HEAD returns the head context, its timers, its elapsed time while RUNNING, its configuration and
the Heat Control Unit's values; READ FAULTS the fault status, pointer, capture, suspend record, flag and
state. Neither changes anything (R48, R154; byte layout of log 17 and 18, a capture record without its peak by
log 33; the reservation's byte, 1 for held, is the model's choice, log 37). -/
def Obligations.HeadReadsKeepState : Prop :=
  ∀ (s : State) (r : ReqHead), s.Takes r →
    (∀ h : HeadId,
      exec (.readHead r (byte h.val)) s = .next (s.answered r 6 .ok
        ((s.head h).ctx.bytes ++ optBytes le16 (s.head h).ctx.segTimer
          ++ optBytes le16 (s.head h).ctx.sampleTimer ++ optBytes le16 (s.head h).ctx.windowTimer
          ++ optBytes le16 (if (s.head h).ctx.state = .running
              then some (s.timebase - (s.head h).ctx.segStart).toNat else none)
          ++ (s.head h).cfg.bytes ++ (s.head h).hcu.bytes))
      ∧ exec (.readFaults r (byte h.val)) s = .next (s.answered r 7 .ok
        (statusBytes (s.head h).fr.status ++ pointerBytes (s.head h).fr.pointer
          ++ optBytes Capture.bytes (s.head h).fr.capture
          ++ optBytes SuspendRecord.bytes (s.head h).ctx.suspendRec
          ++ [flagByte (s.head h).ctx.suspendedOnce, (s.head h).ctx.state.code])))
    ∧ ∀ b : Byte, 16 ≤ b.toNat →
      exec (.readHead r b) s = .next (s.answered r 6 .badArgument [])
      ∧ exec (.readFaults r b) s = .next (s.answered r 7 .badArgument [])

/-- READ RESULTS removes and returns the oldest records up to its count of 1-4, PEEK RESULTS returns the
same records and removes nothing, so that its queued count is that of all of them; an empty queue gives none;
another count is BAD_ARGUMENT (R167, R168, the worked example of chapter 9). -/
def Obligations.ResultReadsTakeOldest : Prop :=
  ∀ (s : State) (r : ReqHead) (n : Byte), s.Takes r →
    (1 ≤ n.toNat → n.toNat ≤ 4 → ∀ taken left, s.results = taken ++ left →
        taken.length = min n.toNat s.results.length →
      exec (.readResults r n) s = .next
        ({ s with results := left }.answered r 8 .ok
          (byte taken.length :: taken.flatMap ResultRecord.bytes
            ++ [byte left.length, byte s.reservations]))
      ∧ exec (.peekResults r n) s = .next
        (s.answered r 9 .ok
          (byte taken.length :: taken.flatMap ResultRecord.bytes
            ++ [byte s.results.length, byte s.reservations])))
    ∧ (n.toNat = 0 ∨ 5 ≤ n.toNat →
      exec (.readResults r n) s = .next (s.answered r 8 .badArgument [])
      ∧ exec (.peekResults r n) s = .next (s.answered r 9 .badArgument []))

/-! ### Joints -/

/-- START's checks, in the order of R25: each refusal changes nothing and carries no data. -/
def Obligations.StartRefusedByFirstFailedCheck : Prop :=
  ∀ (s : State) (r : ReqHead) (serial : Word32), s.Takes r →
    (∀ hd pr : Byte, s.mu.cold = true →
      exec (.start r hd pr serial) s = .next (s.answered r 16 .notReady []))
    ∧ (∀ hd pr : Byte, s.mu.cold = false → 16 ≤ hd.toNat →
      exec (.start r hd pr serial) s = .next (s.answered r 16 .badArgument []))
    ∧ (∀ (h : HeadId) (pr : Byte), s.mu.cold = false → (s.head h).ctx.state ≠ .idle →
      exec (.start r (byte h.val) pr serial) s = .next (s.answered r 16 .badState []))
    ∧ (∀ (h : HeadId) (pr : Byte), s.mu.cold = false → (s.head h).ctx.state = .idle →
        32 ≤ pr.toNat ∨ (∃ p : ProfileId, pr = byte p.val ∧ (s.profile p).recipe = none)
          ∨ (s.head h).cfg.binding = none
          ∨ (∃ g, (s.head h).cfg.binding = some g ∧ (s.gen g).state = .off) →
      exec (.start r (byte h.val) pr serial) s = .next (s.answered r 16 .badArgument []))
    ∧ ∀ (h : HeadId) (p : ProfileId) (g : GenId), s.mu.cold = false →
        (s.head h).ctx.state = .idle → (s.profile p).recipe ≠ none →
        (s.head h).cfg.binding = some g → (s.gen g).state ≠ .off →
      (s.verdict h = false ∨ s.latched h = true →
        exec (.start r (byte h.val) (byte p.val) serial) s = .next (s.answered r 16 .interlock []))
      ∧ (s.verdict h = true → s.latched h = false → 48 ≤ s.results.length + s.reservations →
        exec (.start r (byte h.val) (byte p.val) serial) s = .next (s.answered r 16 .full []))

/-- An accepted START prepares the head (R26) and enters its joint by the generator's state (R27): it
waits where the generator is WAKING, wakes it where it is STANDBY (R112; the notice of R124 with a cause byte
of 0, which is log 16), runs segment 0 where it is READY (R29, R65), the idle timer cancelled (R116), and
where it is FAULTED takes GENERATOR_FAULT at once out of WAIT_GEN (R41, R144, R145; what the fault leaves rests
on log 33 for the captured peak and log 35 for the JOINT_END notice). -/
def Obligations.StartEntersJoint : Prop :=
  ∀ (s : State) (r : ReqHead) (h : HeadId) (p : ProfileId) (serial : Word32) (g : GenId)
      (q : Recipe) (seg : Segment) (rest : List Segment),
    s.Takes r → s.mu.cold = false → (s.head h).ctx.state = .idle →
    (s.profile p).recipe = some q → q.segments = seg :: rest → (s.head h).cfg.binding = some g →
    s.verdict h = true → s.latched h = false → s.results.length + s.reservations < 48 →
    s.inRescue h = false →
    let x := s.head h
    let prepared : Head :=
      { x with
          ctx := { x.ctx with
            serial := serial, profile := some p, revision := (s.profile p).revision,
            jointStart := s.timebase, peak := 0, timeAboveFlow := 0, energy := 0, rescueCount := 0,
            segsDone := 0, derated := false, earlyRelease := false, coolTimeout := false,
            resumed := false, suspendedOnce := false, rampOrigin := none, served := false,
            couplingLow := 0, suspendRec := none, segIndex := 0, entryOffset := 0,
            reservation := true, contEntry := false },
          hcu := { x.hcu with
            filtered := none, setpoint := 0, integrator := 0, demand := 0, seqRef := none,
            prevTime := none },
          rescueReq := false }
    let waiting := s.modHead h fun _ => { prepared with ctx := { prepared.ctx with state := .waitGen } }
    ((s.gen g).state = .waking →
      exec (.start r (byte h.val) (byte p.val) serial) s = .next (waiting.answered r 16 .ok [1]))
    ∧ ((s.gen g).state = .standby →
      exec (.start r (byte h.val) (byte p.val) serial) s = .next
        ({ waiting.modGen g (fun y =>
              { y with state := .waking, wakeTimer := some s.mu.config.wakeTimeout }) with
            rp := s.offered s.rp
              ([2, genCode g, 1, 2, 0] ++ optBytes le16 (s.gen g).bus ++ [s.slots.number]) }.answered
          r 16 .ok [1]))
    ∧ ((s.gen g).state = .ready →
      exec (.start r (byte h.val) (byte p.val) serial) s = .next
        (((s.modGen g fun y => { y with idleTimer := none }).modHead h fun _ =>
            { prepared with
                ctx := { prepared.ctx with
                  state := .running, segStart := s.timebase,
                  segTimer := some (max 1 seg.length), sampleTimer := some (3 * s.slots.period) },
                hcu := { prepared.hcu with
                  setpoint := match seg with
                    | .soak t _ _ => t
                    | _ => 0 } }).answered r 16 .ok [2]))
    ∧ ((s.gen g).state = .faulted →
      ∃ t, exec (.start r (byte h.val) (byte p.val) serial) s =
          .next (t.answered r 16 .ok [(t.head h).ctx.state.code])
        ∧ FaultActs h .generatorFault waiting t)

/-- ABORT ends the joint a head holds with outcome ABORTED, leaves its fault record, and is refused on a
head that holds none or does not exist (R35, R37, R163, R170; the kind's field of the JOINT_END notice is log
35). -/
def Obligations.AbortEndsJoint : Prop :=
  ∀ (s : State) (r : ReqHead), s.Takes r →
    (∀ h : HeadId, s.holds h = true →
      ∃ t, exec (.abort r (byte h.val)) s = .next (t.answered r 17 .ok [3])
        ∧ JointEnded h .aborted none none s.rp s t ∧ OthersKept h s t
        ∧ (t.head h).fr = (s.head h).fr)
    ∧ (∀ h : HeadId, s.holds h = false →
      exec (.abort r (byte h.val)) s = .next (s.answered r 17 .badState []))
    ∧ ∀ b : Byte, 16 ≤ b.toNat → exec (.abort r b) s = .next (s.answered r 17 .badArgument [])

/-- SUSPEND HEAD suspends a RUNNING or WAIT_GEN head with cause MANUAL, and is refused in any other state
(R38, R39, R40). -/
def Obligations.SuspendHeadSuspends : Prop :=
  ∀ (s : State) (r : ReqHead), s.Takes r →
    (∀ h : HeadId, (s.head h).ctx.state = .running ∨ (s.head h).ctx.state = .waitGen →
      ∃ t, exec (.suspendHead r (byte h.val)) s = .next (t.answered r 18 .ok [])
        ∧ HeadSuspended h .manual s t ∧ OthersKept h s t ∧ (t.head h).fr = (s.head h).fr
        ∧ (t.head h).ctx.suspendedOnce = (s.head h).ctx.suspendedOnce ∧ t.rp = s.rp)
    ∧ (∀ h : HeadId, (s.head h).ctx.state ≠ .running → (s.head h).ctx.state ≠ .waitGen →
      exec (.suspendHead r (byte h.val)) s = .next (s.answered r 18 .badState []))
    ∧ ∀ b : Byte, 16 ≤ b.toNat →
      exec (.suspendHead r b) s = .next (s.answered r 18 .badArgument [])

/-- RESUME HEAD, by the checks of R42 in order; accepted with a READY generator it runs the segment, whatever
its kind; with a WAKING one it waits; with a STANDBY one it waits and wakes it (R112; the notice of R124 with
a cause byte of 0, which is log 16); with a FAULTED one it takes GENERATOR_FAULT at once out of WAIT_GEN
(R27, R29, R41, R43, R65, R66, R105, R145; what the fault leaves rests on log 33 and log 35). `cont` is the
continue flag. -/
def Obligations.ResumeHeadResumes : Prop :=
  ∀ (s : State) (r : ReqHead) (cont : Bool), s.Takes r →
    (∀ hd k : Byte, 16 ≤ hd.toNat →
      exec (.resumeHead r hd k cont) s = .next (s.answered r 19 .badArgument []))
    ∧ (∀ (h : HeadId) (k : Byte), (s.head h).ctx.state ≠ .suspended →
      exec (.resumeHead r (byte h.val) k cont) s = .next (s.answered r 19 .badState []))
    ∧ ∀ (h : HeadId) (k : Byte) (q : SuspendRecord), (s.head h).ctx.state = .suspended →
        (s.head h).ctx.suspendRec = some q →
      let x := s.head h
      let blocked := FaultKind.coolantLost ∈ x.fr.status ∨ ∃ j ∈ x.fr.status, q.cause = .fault j
      let wrong := q.segIndex < k.toNat ∨ (cont = true ∧ k.toNat ≠ q.segIndex)
      let resumed : Head :=
        { x with
            ctx := { x.ctx with
              segIndex := k.toNat, entryOffset := if cont then q.elapsed else 0,
              rampOrigin := if cont then q.rampOrigin else x.ctx.rampOrigin,
              segsDone := k.toNat, windowTimer := none, resumed := true, served := false,
              couplingLow := 0, contEntry := cont },
            hcu := { x.hcu with
              integrator := if cont then q.integrator else 0, demand := 0, seqRef := none } }
      (wrong → exec (.resumeHead r (byte h.val) k cont) s =
        .next (s.answered r 19 .badArgument []))
      ∧ (¬ wrong → blocked → exec (.resumeHead r (byte h.val) k cont) s =
        .next (s.answered r 19 .badState []))
      ∧ (¬ wrong → ¬ blocked → s.verdict h = false ∨ s.latched h = true →
        exec (.resumeHead r (byte h.val) k cont) s = .next (s.answered r 19 .interlock []))
      ∧ ∀ g, ¬ wrong → ¬ blocked → s.verdict h = true → s.latched h = false →
          (s.head h).cfg.binding = some g →
        let waiting := s.modHead h fun _ =>
          { resumed with ctx := { resumed.ctx with state := .waitGen } }
        ((s.gen g).state = .waking →
          exec (.resumeHead r (byte h.val) k cont) s = .next (waiting.answered r 19 .ok [1]))
        ∧ ((s.gen g).state = .standby →
          exec (.resumeHead r (byte h.val) k cont) s = .next
            ({ waiting.modGen g (fun y =>
                  { y with state := .waking, wakeTimer := some s.mu.config.wakeTimeout }) with
                rp := s.offered s.rp
                  ([2, genCode g, 1, 2, 0] ++ optBytes le16 (s.gen g).bus ++ [s.slots.number]) }.answered
              r 19 .ok [1]))
        ∧ ((s.gen g).state = .faulted →
          ∃ t, exec (.resumeHead r (byte h.val) k cont) s =
              .next (t.answered r 19 .ok [(t.head h).ctx.state.code])
            ∧ FaultActs h .generatorFault waiting t)
        ∧ ∀ (p : ProfileId) (rc : Recipe) (seg : Segment), (s.gen g).state = .ready →
            x.ctx.profile = some p → (s.profile p).recipe = some rc →
            rc.segments[k.toNat]? = some seg → seg.isSoak = true ∨ s.inRescue h = false →
          let entered := resumed.entered seg s.timebase (3 * s.slots.period)
          exec (.resumeHead r (byte h.val) k cont) s = .next
            (((s.modGen g fun y => { y with idleTimer := none }).modHead h fun _ => entered).answered
              r 19 .ok [2])

/-- R45: CLEAR HEAD is refused BAD_ARGUMENT for no head, BAD_STATE unless the head is FAULTED with an empty
fault status, and otherwise makes it IDLE and changes nothing else. -/
def Obligations.ClearHeadMakesFaultedHeadIdle : Prop :=
  ∀ (s : State) (r : ReqHead), s.Takes r →
    (∀ b : Byte, 16 ≤ b.toNat → exec (.clearHead r b) s = .next (s.answered r 20 .badArgument []))
    ∧ (∀ h : HeadId, (s.head h).ctx.state ≠ .faulted →
      exec (.clearHead r (byte h.val)) s = .next (s.answered r 20 .badState []))
    ∧ (∀ h : HeadId, (s.head h).ctx.state = .faulted → (s.head h).fr.status ≠ [] →
      exec (.clearHead r (byte h.val)) s = .next (s.answered r 20 .badState []))
    ∧ ∀ h : HeadId, (s.head h).ctx.state = .faulted → (s.head h).fr.status = [] →
      exec (.clearHead r (byte h.val)) s = .next
        ((s.modHead h fun x => { x with ctx := { x.ctx with state := .idle } }).answered r 20 .ok [])

/-- DISABLE HEAD, by the checks of R46 in order; accepted, it clears the enabled field of an IDLE head and
makes it DISABLED, and START is then refused BAD_STATE. -/
def Obligations.DisableHeadDisablesIdleHead : Prop :=
  ∀ (s : State) (r : ReqHead), s.Takes r →
    (∀ b : Byte, ¬ IsEngineer r → exec (.disableHead r b) s = .next (s.answered r 42 .denied []))
    ∧ (IsEngineer r → ∀ b : Byte, 16 ≤ b.toNat →
      exec (.disableHead r b) s = .next (s.answered r 42 .badArgument []))
    ∧ (IsEngineer r → ∀ h : HeadId, (s.head h).ctx.state ≠ .idle →
      exec (.disableHead r (byte h.val)) s = .next (s.answered r 42 .badState []))
    ∧ (IsEngineer r → ∀ h : HeadId, (s.head h).ctx.state = .idle →
      exec (.disableHead r (byte h.val)) s = .next
        ((s.modHead h fun x =>
          { x with cfg := { x.cfg with enabled := false },
                   ctx := { x.ctx with state := .disabled } }).answered r 42 .ok []))
    ∧ ∀ (h : HeadId) (pr : Byte) (serial : Word32), s.mu.cold = false →
      (s.head h).ctx.state = .disabled →
      exec (.start r (byte h.val) pr serial) s = .next (s.answered r 16 .badState [])

/-- R47: ENABLE HEAD is refused DENIED, BAD_ARGUMENT for no head, BAD_STATE unless the head is DISABLED, in
that order, and otherwise sets its enabled field and makes it IDLE. -/
def Obligations.EnableHeadMakesDisabledHeadIdle : Prop :=
  ∀ (s : State) (r : ReqHead), s.Takes r →
    (∀ b : Byte, ¬ IsEngineer r → exec (.enableHead r b) s = .next (s.answered r 43 .denied []))
    ∧ (IsEngineer r → ∀ b : Byte, 16 ≤ b.toNat →
      exec (.enableHead r b) s = .next (s.answered r 43 .badArgument []))
    ∧ (IsEngineer r → ∀ h : HeadId, (s.head h).ctx.state ≠ .disabled →
      exec (.enableHead r (byte h.val)) s = .next (s.answered r 43 .badState []))
    ∧ (IsEngineer r → ∀ h : HeadId, (s.head h).ctx.state = .disabled →
      exec (.enableHead r (byte h.val)) s = .next
        ((s.modHead h fun x =>
          { x with cfg := { x.cfg with enabled := true },
                   ctx := { x.ctx with state := .idle } }).answered r 43 .ok []))

/-- CLEAR FAULTS removes the kinds it names from the head's status, empties the pointer and the capture
record where it removes the pointer's kind, and changes nothing else; an empty set, a byte that is no kind
or no head are BAD_ARGUMENT (R150). A set that repeats a kind is that set (log 21). -/
def Obligations.ClearFaultsRemovesKinds : Prop :=
  ∀ (s : State) (r : ReqHead), s.Takes r →
    (∀ (b : Byte) (bs : List Byte), 16 ≤ b.toNat ∨ bs = [] ∨ (∃ c ∈ bs, 9 ≤ c.toNat) →
      exec (.clearFaults r b bs) s = .next (s.answered r 21 .badArgument []))
    ∧ ∀ (h : HeadId) (ks : List FaultKind), ks ≠ [] →
      let f := (s.head h).fr
      let status := f.status.filter fun k => !ks.contains k
      let gone := match f.pointer with
        | some k => ks.contains k && f.status.contains k
        | none => false
      let f' : FaultRecord :=
        { status := status, pointer := if gone then none else f.pointer,
          capture := if gone then none else f.capture }
      exec (.clearFaults r (byte h.val) (ks.map fun k => byte k.idx.val)) s = .next
        ((s.modHead h fun x => { x with fr := f' }).answered r 21 .ok
          (statusBytes status ++ pointerBytes f'.pointer))

/-- WRITE HEAD CONFIG, by the checks of R23 in order; accepted, it stores the clamped fields and keeps the
enabled field; where a polarity changes, the three inputs of the head become UNSATISFIED with their marks
clear, and stay as they are otherwise (R22, R23, R137; reply layout of log 14 and 18). -/
def Obligations.WriteHeadConfigStoresFields : Prop :=
  ∀ (s : State) (r : ReqHead) (w : HeadConfigArg), s.TakesEngineer r →
    (16 ≤ w.head.toNat ∨ 3 ≤ w.binding.toNat →
      exec (.writeHeadConfig r w) s = .next (s.answered r 38 .badArgument []))
    ∧ ∀ (h : HeadId) (b : Option GenId), w.head = byte h.val → w.binding = bindingCode b →
      (s.holds h = true → exec (.writeHeadConfig r w) s = .next (s.answered r 38 .inUse []))
      ∧ (s.holds h = false →
        let old := (s.head h).cfg
        let new : HeadConfig :=
          { binding := b, priority := min w.priority.toNat 7, masked := w.masked,
            powerLimit := min w.powerLimit.toNat 2500, couplingMin := min w.couplingMin.toNat 4000,
            couplingPower := min w.couplingPower.toNat 2500, polPart := w.polPart,
            polClamp := w.polClamp, polCoil := w.polCoil, enabled := old.enabled }
        let same := old.polPart = w.polPart ∧ old.polClamp = w.polClamp ∧ old.polCoil = w.polCoil
        exec (.writeHeadConfig r w) s = .next
          ((s.modHead h fun x =>
            { x with
                cfg := new,
                inputs := if same then x.inputs
                  else { part := ⟨x.inputs.part.raw, false, false⟩,
                         clamp := ⟨x.inputs.clamp.raw, false, false⟩,
                         coil := ⟨x.inputs.coil.raw, false, false⟩ } }).answered r 38 .ok
            new.bytes))

/-! ### Profiles, phase tables, exclusions -/

/-- WRITE PROFILE: R13's checks are made on the clamped request; the refusals stand in the order of R14,
STALE with the current revision; accepted, the record takes the clamped contents whole, VALID, with the next
revision, and the reply says whether a clamp changed a field (R11, R12, R13, R14, R15, R16). -/
def Obligations.WriteProfileStoresClampedRecord : Prop :=
  ∀ (s : State) (r : ReqHead) (w : ProfileArg), s.TakesEngineer r →
    let rc : Recipe :=
      { params :=
          { flowTemp := w.flowTemp.toNat, maxTemp := min w.maxTemp.toNat 12000,
            weight := max 1 (min w.weight.toNat 16), kp := w.kp.toNat, ki := w.ki.toNat,
            deficitBand := min w.deficitBand.toNat 1000, recoverBand := w.recoverBand.toNat },
        segments := w.segments.filterMap fun g =>
          match g with
          | .ramp t a b l c =>
            some (.ramp t.toNat (max 10 (min a.toNat 5000)) (min b.toNat 500)
              (max 50 (min l.toNat 60000)) (min c.toNat 2500))
          | .soak t d c => some (.soak t.toNat (max 10 (min d.toNat 60000)) (min c.toNat 2500))
          | .cool t l => some (.cool t.toNat (max 10 (min l.toNat 60000)))
          | .other _ => none,
        criteria :=
          { minPeak := w.criteria.minPeak.map fun v => min v.toNat 12000,
            maxPeak := w.criteria.maxPeak.map fun v => min v.toNat 12000,
            minFlow := w.criteria.minFlow.map BitVec.toNat,
            maxFlow := w.criteria.maxFlow.map BitVec.toNat,
            minEnergy := w.criteria.minEnergy.map fun v => min v.toNat 42949672,
            maxEnergy := w.criteria.maxEnergy.map fun v => min v.toNat 42949672,
            maxRescues := w.criteria.maxRescues.map BitVec.toNat,
            fullCool := w.criteria.fullCool } }
    let ordered := fun (lo hi : Option Nat) => ∀ a b, lo = some a → hi = some b → a ≤ b
    let fits := w.profile.toNat < 32 ∧ w.segCount.toNat = w.segments.length
      ∧ w.segments.all SegArg.known = true ∧ rc.Legal
      ∧ ordered rc.criteria.minPeak rc.criteria.maxPeak
      ∧ ordered rc.criteria.minFlow rc.criteria.maxFlow
      ∧ ordered rc.criteria.minEnergy rc.criteria.maxEnergy
    (¬ fits → exec (.writeProfile r w) s = .next (s.answered r 32 .badArgument []))
    ∧ ∀ p : ProfileId, w.profile = byte p.val → fits →
      let old := s.profile p
      (old.locked = true → exec (.writeProfile r w) s = .next (s.answered r 32 .locked []))
      ∧ (old.locked = false → s.inUse p = true →
        exec (.writeProfile r w) s = .next (s.answered r 32 .inUse []))
      ∧ (old.locked = false → s.inUse p = false → (∃ e, w.expected = some e ∧ e ≠ old.revision) →
        exec (.writeProfile r w) s = .next (s.answered r 32 .stale (enc16 old.revision)))
      ∧ (old.locked = false → s.inUse p = false →
          w.expected = none ∨ w.expected = some old.revision →
        exec (.writeProfile r w) s = .next
          ((s.modProfile p fun _ => ⟨some rc, old.locked, old.revision + 1⟩).answered r 32 .ok
            (enc16 (old.revision + 1) ++ [flagByte (decide (rc ≠ w.carriedRecipe))])))

/-- ERASE, LOCK and UNLOCK PROFILE, by their checks of R14 in order; accepted, an erase makes the record
EMPTY with the next revision, and LOCK and UNLOCK set or clear the lock, an expected revision playing no
part (R14, R16, R17, R18, R19; log 19). -/
def Obligations.EraseAndLocksChangeOneRecord : Prop :=
  ∀ (s : State) (r : ReqHead) (e : Option Word16), s.TakesEngineer r →
    (∀ b : Byte, 32 ≤ b.toNat →
      exec (.eraseProfile r b e) s = .next (s.answered r 33 .badArgument [])
      ∧ exec (.lockProfile r b e) s = .next (s.answered r 34 .badArgument [])
      ∧ exec (.unlockProfile r b e) s = .next (s.answered r 35 .badArgument []))
    ∧ ∀ p : ProfileId,
      let old := s.profile p
      (old.locked = true →
        exec (.eraseProfile r (byte p.val) e) s = .next (s.answered r 33 .locked []))
      ∧ (old.locked = false → s.inUse p = true →
        exec (.eraseProfile r (byte p.val) e) s = .next (s.answered r 33 .inUse []))
      ∧ (old.locked = false → s.inUse p = false → (∃ v, e = some v ∧ v ≠ old.revision) →
        exec (.eraseProfile r (byte p.val) e) s =
          .next (s.answered r 33 .stale (enc16 old.revision)))
      ∧ (old.locked = false → s.inUse p = false → e = none ∨ e = some old.revision →
        exec (.eraseProfile r (byte p.val) e) s = .next
          ((s.modProfile p fun _ => ⟨none, false, old.revision + 1⟩).answered r 33 .ok
            (enc16 (old.revision + 1))))
      ∧ exec (.lockProfile r (byte p.val) e) s = .next
          ((s.modProfile p fun _ => ⟨old.recipe, true, old.revision⟩).answered r 34 .ok
            (enc16 old.revision ++ [1]))
      ∧ (s.inUse p = true →
        exec (.unlockProfile r (byte p.val) e) s = .next (s.answered r 35 .inUse []))
      ∧ (s.inUse p = false →
        exec (.unlockProfile r (byte p.val) e) s = .next
          ((s.modProfile p fun _ => ⟨old.recipe, false, old.revision⟩).answered r 35 .ok
            (enc16 old.revision ++ [0])))

/-- WRITE PHASES, by the checks of R77, writes its entries to the staged table from its start index, sets
the length, empties what lies beyond and sets staged differs (R78). -/
def Obligations.WritePhasesChangesStagedTable : Prop :=
  ∀ (s : State) (r : ReqHead), s.TakesEngineer r →
    (∀ (b start len : Byte) (es : List Byte),
      2 ≤ b.toNat ∨ 32 < len.toNat ∨ len.toNat < start.toNat + es.length
        ∨ (∃ x ∈ es, 16 ≤ x.toNat ∧ x ≠ 255) →
      exec (.writePhases r b start es len) s = .next (s.answered r 36 .badArgument []))
    ∧ ∀ (g : GenId) (start len : Byte) (es : List (Option HeadId)), len.toNat ≤ 32 →
        start.toNat + es.length ≤ len.toNat →
      ((s.gen g).loadPending = true →
        exec (.writePhases r (genCode g) start (es.map headCode) len) s =
          .next (s.answered r 36 .busy []))
      ∧ ((s.gen g).loadPending = false →
        ∃ t : PhaseTable, t.length = len.toNat
          ∧ (∀ i : Fin 32, t.entries[i] =
              if len.toNat ≤ i.val then none
              else if start.toNat ≤ i.val ∧ i.val < start.toNat + es.length
              then (es[i.val - start.toNat]?).join
              else (s.gen g).staged.entries[i])
          ∧ exec (.writePhases r (genCode g) start (es.map headCode) len) s = .next
              ((s.modGen g fun x => { x with staged := t, stagedDiffers := true }).answered
                r 36 .ok [len]))

/-- LOAD PHASES, by the checks of R79, sets the load pending flag and changes nothing else. -/
def Obligations.LoadPhasesSetsLoadPending : Prop :=
  ∀ (s : State) (r : ReqHead), s.TakesEngineer r →
    (∀ b : Byte, 2 ≤ b.toNat → exec (.loadPhases r b) s = .next (s.answered r 37 .badArgument []))
    ∧ ∀ g : GenId,
      let bad := ∃ (i : Fin 32) (h : HeadId), i.val < (s.gen g).staged.length
        ∧ (s.gen g).staged.entries[i] = some h ∧ (s.head h).cfg.binding ≠ some g
      ((s.gen g).loadPending = true →
        exec (.loadPhases r (genCode g)) s = .next (s.answered r 37 .busy []))
      ∧ ((s.gen g).loadPending = false → bad →
        exec (.loadPhases r (genCode g)) s = .next (s.answered r 37 .badTable []))
      ∧ ((s.gen g).loadPending = false → ¬ bad →
        exec (.loadPhases r (genCode g)) s = .next
          ((s.modGen g fun x => { x with loadPending := true }).answered r 37 .ok
            [byte (s.gen g).staged.length]))

/-- WRITE EXCLUSIONS replaces the list by the distinct pairs it is given, at most 16; a pair that names no
head or the same head twice, or more than 16 distinct pairs, are BAD_ARGUMENT (R86; the places of the pairs
in the list are log 20). -/
def Obligations.WriteExclusionsReplacesList : Prop :=
  ∀ (s : State) (r : ReqHead), s.TakesEngineer r →
    let bytes := fun (l : List (HeadId × HeadId)) =>
      l.map fun p => (byte p.1.val, byte p.2.val)
    (∀ ps : List (Byte × Byte), (∃ p ∈ ps, 16 ≤ p.1.toNat ∨ 16 ≤ p.2.toNat ∨ p.1 = p.2) →
      exec (.writeExclusions r ps) s = .next (s.answered r 39 .badArgument []))
    ∧ (∀ ps l : List (HeadId × HeadId), (∀ p ∈ ps, p.1 ≠ p.2) → (∀ p ∈ l, p ∈ ps) → 16 < l.length →
        (l.Pairwise fun p q => samePair p q = false) →
      exec (.writeExclusions r (bytes ps)) s = .next (s.answered r 39 .badArgument []))
    ∧ ∀ ps l : List (HeadId × HeadId), (∀ p ∈ ps, p.1 ≠ p.2) → (∀ p ∈ l, p ∈ ps) → l.length ≤ 16 →
        (∀ p ∈ ps, ∃ q ∈ l, samePair p q = true) → (l.Pairwise fun p q => samePair p q = false) →
      ∃ l' : List (HeadId × HeadId), l'.length = l.length
        ∧ (∀ p ∈ l', p ∈ ps) ∧ (∀ p ∈ ps, ∃ q ∈ l', samePair p q = true)
        ∧ (l'.Pairwise fun p q => samePair p q = false)
        ∧ exec (.writeExclusions r (bytes ps)) s = .next
            ({ s with slots := { s.slots with exclusions := l' } }.answered r 39 .ok
              [byte l.length])

/-! ### The part's own commands -/

/-- WRITE PART CONFIG, by the checks of R195 on the clamped fields; accepted, the record stands at once,
each generator changes as R111 and R120 state, with a GEN_STATE notice for each whose state changes, and
running timers, the slot period in force, heads and profiles stay (R195, R196, R124; the cause byte 0 of these
notices is log 16, that they go to the new notice station, A's before B's, log 23). -/
def Obligations.WritePartConfigStoresClampedRecord : Prop :=
  ∀ (s : State) (r : ReqHead) (w : PartConfigArg), s.TakesEngineer r →
    (2 ≤ w.modeA.toNat ∨ 2 ≤ w.modeB.toNat ∨ min w.vf.toNat 1000 ≤ min w.vt.toNat 1000 →
      exec (.writePartConfig r w) s = .next (s.answered r 40 .badArgument []))
    ∧ ∀ ma mb : RescueMode, w.modeA = ma.code → w.modeB = mb.code →
        min w.vt.toNat 1000 < min w.vf.toNat 1000 →
      let old := s.mu.config
      let new : PartConfig :=
        { slotPeriod := max 2 (min w.slotPeriod.toNat 20),
          concentrator := min w.concentrator.toNat 62, ioStation := min w.ioStation.toNat 62,
          stationA := min w.stationA.toNat 62, stationB := min w.stationB.toNat 62,
          noticeStation := min w.noticeStation.toNat 62, ratingA := min w.ratingA.toNat 2500,
          ratingB := min w.ratingB.toNat 2500, vt := min w.vt.toNat 1000, vf := min w.vf.toNat 1000,
          wakeTimeout := max 50 (min w.wakeTimeout.toNat 2000),
          idleDelay := max 100 (min w.idleDelay.toNat 10000),
          interlockTimeout := max 10 (min w.interlockTimeout.toNat 200),
          rescueLimit := max 50 (min w.rescueLimit.toNat 5000),
          resumeWindow := max 100 (min w.resumeWindow.toNat 30000), modeA := ma, modeB := mb }
      let held := (∃ h, s.holds h = true)
        ∧ ¬ (new.slotPeriod = old.slotPeriod ∧ new.stationA = old.stationA
          ∧ new.stationB = old.stationB ∧ new.ratingA = old.ratingA ∧ new.ratingB = old.ratingB)
      (held → exec (.writePartConfig r w) s = .next (s.answered r 40 .inUse []))
      ∧ (¬ held → ∃ (t : State) (clamped : Bool),
        exec (.writePartConfig r w) s =
            .next (t.answered r 40 .ok (new.bytes ++ [flagByte clamped]))
          ∧ (clamped = true ↔ new ≠ carriedConfig w ma mb)
          ∧ t.mu = { s.mu with config := new } ∧ t.heads = s.heads ∧ t.profiles = s.profiles
          ∧ t.slots = s.slots ∧ t.interlocks = s.interlocks ∧ t.results = s.results
          ∧ t.timebase = s.timebase ∧ t.rstHeld = s.rstHeld ∧ t.pending = s.pending
          ∧ (∀ g, t.gen g =
              let x := s.gen g
              let stopped : Generator :=
                { x with reported := none, bus := none, budget := 0, wakeTimer := none,
                         idleTimer := none, statusTimer := none }
              let given := new.station g ≠ 0 ∧ new.rating g ≠ 0
              if x.state = .off then
                if given then { stopped with state := .standby, cause := .none } else x
              else if ¬ given then { stopped with state := .off, cause := .none }
              else if new.station g ≠ old.station g then { stopped with state := .standby }
              else { x with budget :=
                match x.bus with
                | none => 0
                | some v =>
                  if new.vf ≤ v then new.rating g
                  else if v ≤ new.vt then 0
                  else new.rating g * (v - new.vt) / (new.vf - new.vt) })
          ∧ (let written : State := { s with mu := { s.mu with config := new } }
            let offer := fun (rp : RingPort) (g : GenId) =>
              if (t.gen g).state = (s.gen g).state then rp
              else written.offered rp
                [2, genCode g, (s.gen g).state.code, (t.gen g).state.code, 0, 0, s.slots.number]
            t.rp = offer (offer s.rp .a) .b))

/-- WRITE FAULT POLICY replaces the whole policy at once where it carries one entry for each kind in the
order of R139, each severity SUSPEND or ABORT and each fixed kind ABORT; else it is BAD_ARGUMENT (R141;
that the entries stand without a count byte is log 13, the mask codes log 14). -/
def Obligations.WriteFaultPolicyReplacesPolicy : Prop :=
  ∀ (s : State) (r : ReqHead), s.TakesEngineer r →
    (∀ es : List (Byte × Byte), es.length ≠ 9 ∨ (∃ p ∈ es, 2 ≤ p.2.toNat)
        ∨ (∃ k : FaultKind, k.fixedAbort = true ∧ (es[k.idx.val]?).map Prod.snd = some 0) →
      exec (.writeFaultPolicy r es) s = .next (s.answered r 41 .badArgument []))
    ∧ ∀ masked aborts : FaultKind → Bool, (∀ k, k.fixedAbort = true → aborts k = true) →
      let es : List (Byte × Byte) :=
        FaultKind.all.map fun k => (flagByte (!masked k), flagByte (aborts k))
      ∃ v : Vector PolicyEntry 9,
        (∀ k : FaultKind, v[k.idx] = ⟨masked k, if aborts k then .abort else .suspend⟩)
          ∧ exec (.writeFaultPolicy r es) s = .next
              ({ s with mu := { s.mu with policy := v } }.answered r 41 .ok
                (es.flatMap fun p : Byte × Byte => [p.1, p.2]))

/-- ACK COLD START clears COLD and says whether it was set (R197); CLEAR COUNTERS zeroes every counter and
nothing else (R199); RESET PART, taken with ENGINEER authority, makes the MU reset pending, its reply
carrying the reset mark (R187, R200). -/
def Obligations.CommandsWithoutChecks : Prop :=
  ∀ (s : State) (r : ReqHead), s.Takes r →
    exec (.ackColdStart r) s = .next
        (({ s with mu := { s.mu with cold := false } } : State).answered r 24 .ok [flagByte s.mu.cold])
      ∧ exec (.clearCounters r) s = .next
        (({ s with
            heads := s.heads.map fun x => { x with deviations := Vector.replicate 11 0 },
            rp := { s.rp with counters := Vector.replicate 9 0 },
            interlocks := { s.interlocks with timeouts := 0 } } : State).answered r 25 .ok [])
      ∧ (IsEngineer r → exec (.resetPart r) s = .next
        { s with
            engEn := r.engEn, mu := { s.mu with resetPending := true },
            rp := s.rp.placeReply
              ⟨mkFrame r.source s.ownStation 9 (enc16 r.tag ++ [44, 0]), true⟩ })

/-- CLEAR GENERATOR, by the checks of R123: accepted, the generator enters STANDBY with bus voltage none and
budget 0, its cause and reported state kept, and a GEN_STATE notice is made (R123, R124; the cause field of
the notice is log 16). -/
def Obligations.ClearGeneratorEntersStandby : Prop :=
  ∀ (s : State) (r : ReqHead), s.Takes r →
    (∀ b : Byte, 2 ≤ b.toNat →
      exec (.clearGenerator r b) s = .next (s.answered r 23 .badArgument []))
    ∧ (∀ g : GenId, (s.gen g).state ≠ .faulted ∨ (s.gen g).reported = some .fault →
      exec (.clearGenerator r (genCode g)) s = .next (s.answered r 23 .badState []))
    ∧ ∀ g : GenId, (s.gen g).state = .faulted → (s.gen g).reported ≠ some .fault →
      exec (.clearGenerator r (genCode g)) s = .next
        ({ s.modGen g (fun x => { x with state := .standby, bus := none, budget := 0 }) with
            rp := s.offered s.rp [2, genCode g, 4, 1, 0, 0, s.slots.number] }.answered r 23 .ok [1])

/-- CLEAR COOLANT LATCH clears the latch of a group whose coolant is SATISFIED, is refused INTERLOCK where
it is not and BAD_ARGUMENT for no group, and changes nothing else (R136; that byte 0 of the reply is the code
of SATISFIED is log 14). -/
def Obligations.ClearCoolantLatchNeedsFlow : Prop :=
  ∀ (s : State) (r : ReqHead), s.Takes r →
    (∀ b : Byte, 4 ≤ b.toNat →
      exec (.clearCoolantLatch r b) s = .next (s.answered r 22 .badArgument []))
    ∧ (∀ g : GroupId, (s.group g).flow.satisfied = false →
      exec (.clearCoolantLatch r (byte g.val)) s = .next (s.answered r 22 .interlock []))
    ∧ ∀ g : GroupId, (s.group g).flow.satisfied = true →
      exec (.clearCoolantLatch r (byte g.val)) s = .next
        ((s.modGroup g fun x => { x with latch := false }).answered r 22 .ok [0, 0])

/-! ### Timer expiries -/

/-- The segment timer's expiry exits a SOAK or COOL, a COOL with the cool timeout flag (R8, R30): into the next
segment of whatever kind (R29, R65), with the entry test of R135 where that heats, or to the joint's normal
end after the last, judged by the criteria in the order of R165 (R30, R35, R164). The kind's field of the
JOINT_END notice is log 35, the peak a fault captures log 33. -/
def Obligations.SegmentTimerExitsSegment : Prop :=
  ∀ (s : State) (h : HeadId) (p : ProfileId) (rc : Recipe) (seg : Segment), s.rstHeld = false →
    (s.head h).ctx.state = .running → (s.head h).ctx.segTimer = some 0 →
    (s.head h).ctx.entryOffset = 0 → (s.head h).ctx.contEntry = false →
    (s.head h).ctx.profile = some p → (s.profile p).recipe = some rc →
    rc.segments[(s.head h).ctx.segIndex]? = some seg → (∀ t a b l c, seg ≠ .ramp t a b l c) →
    ∃ u, exec (.segmentTimerExpiry h) s = .next u
      ∧ SegmentExited h rc
          (s.modHead h fun x =>
            { x with ctx := { x.ctx with coolTimeout := x.ctx.coolTimeout || !seg.heats } }) u

/-- The expiries that raise faults: the sample timer SENSOR_LOST (R33), the limit timer of a RAMP
SEGMENT_OVERTIME (R31), the resume window SUSPEND_EXPIRED (R44), the rescue limit SOAK_DEFICIT after the
rescue has ended (R103, R107). Each is taken whole, as R144 and R145 state (the peak in the capture record is
log 33, the kind's field of the JOINT_END notice log 35). -/
def Obligations.TimerExpiriesRaiseFaults : Prop :=
  ∀ (s : State) (h : HeadId), s.rstHeld = false →
    ((s.head h).ctx.state = .running → (s.head h).ctx.sampleTimer = some 0 →
      ∃ t, exec (.sampleTimerExpiry h) s = .next t ∧ FaultActs h .sensorLost s t)
    ∧ ((s.head h).ctx.state = .running → (s.head h).ctx.segTimer = some 0 →
        (∃ a b c d e, s.segment h = some (.ramp a b c d e)) →
      ∃ t, exec (.segmentTimerExpiry h) s = .next t ∧ FaultActs h .segmentOvertime s t)
    ∧ ((s.head h).ctx.state = .suspended → (s.head h).ctx.windowTimer = some 0 →
      ∃ t, exec (.resumeWindowExpiry h) s = .next t
        ∧ FaultRecorded h .suspendExpired .abort s t ∧ OthersKept h s t
        ∧ JointEnded h .fault none (some .suspendExpired)
            (s.faultNoticed h .suspendExpired .abort) s t)
    ∧ ∀ g, (s.gen g).inService = some h → (s.gen g).limitTimer = some 0 →
        (s.head h).ctx.state = .running →
      ∃ t, exec (.rescueLimitExpiry g) s = .next t
        ∧ FaultActs h .soakDeficit
            (s.modGen g fun x => x.afterEnd h (s.mu.config.mode g) false false 0) t

/-- The generator timers: a wake or status expiry puts the generator in FAULTED with its cause, ends its
rescue and makes the GEN_STATE notice; then each head bound to it in WAIT_GEN or RUNNING, and no other, takes
GENERATOR_FAULT whole, with its notices, in ascending number (R114, R115, R122, R124, R144, R145; what the fault leaves rests
on log 33 and log 35); an idle expiry parks it in STANDBY with a notice and changes nothing else (R116, R124; the
cause byte 0 of this notice is log 16). -/
def Obligations.GeneratorTimerExpiries : Prop :=
  (∀ (s : State) (g : GenId) (c : Instr) (cause : GenCause), s.rstHeld = false →
    (c = .wakeTimerExpiry g ∧ cause = .wakeTimeout ∧ (s.gen g).state = .waking
        ∧ (s.gen g).wakeTimer = some 0)
      ∨ (c = .statusTimerExpiry g ∧ cause = .statusLost ∧ (s.gen g).state = .ready
        ∧ (s.gen g).statusTimer = some 0) →
    ∃ t, exec c s = .next t ∧ GenFaulted g cause s t)
  ∧ ∀ (s : State) (g : GenId), s.rstHeld = false → (s.gen g).state = .ready →
      (s.gen g).idleTimer = some 0 →
    exec (.idleTimerExpiry g) s = .next
      { s.modGen g (fun x =>
          { x with state := .standby, idleTimer := none, statusTimer := none }) with
        rp := s.offered s.rp
          ([2, genCode g, 3, 1, 0] ++ optBytes le16 (s.gen g).bus ++ [s.slots.number]) }

/-- An INTERLOCK frame restarts the frame timer, records the raw states, debounces every input by the table
of R128 and latches every group it shows without flow (R127, R128, R133); the frame timer's expiry makes
every input UNSATISFIED, counts and latches every group (R129). Either then acts on the coolant losses, G0 to G3,
each with its COOLANT_LATCH notice where it sets the latch, before its heads' turns, and after them on the
interlock losses, H0 to H15 (R132-R134, R127 steps 5 and 6, R129 steps 4 and 5; the raw code is log 14). A head's
turn takes its fault whole, with capture, joint end and notices (R144, R145; log 33 and log 35); a SUSPENDED head
only records a coolant loss, a head in COOL is released early, one without a joint does nothing. -/
def Obligations.InterlocksDebounceAndLatch : Prop :=
  let judged := fun (i : Input) (raw ok : Bool) =>
    match i.satisfied, i.mark, ok with
    | true, _, true => (⟨some raw, true, false⟩ : Input)
    | false, true, true => ⟨some raw, true, false⟩
    | false, false, true => ⟨some raw, false, true⟩
    | _, _, false => ⟨some raw, false, false⟩
  let asked := fun (p : Polarity) (raw : Bool) =>
    match p with
    | .activeOn => raw
    | .activeOff => !raw
  let acts := fun (s v t : State) (dry : GroupId → Bool) =>
    let lost := fun g => dry g = true ∧ ((s.group g).flow.satisfied = true ∨ (s.group g).latch = false)
    let loses := fun h => s.verdict h = true ∧ v.verdict h = false
    LossesActedOn lost loses v t
      ∧ (∀ h, LossActs h (lost (groupOf h)) (loses h) s t ∧ (t.head h).inputs = (v.head h).inputs)
      ∧ (∀ g, t.group g = { v.group g with latch := (s.group g).latch || dry g })
      ∧ t.interlocks.frameTimer = v.interlocks.frameTimer
      ∧ t.interlocks.timeouts = v.interlocks.timeouts
      ∧ t.profiles = s.profiles ∧ t.mu = s.mu ∧ t.slots = s.slots ∧ t.timebase = s.timebase
  (∀ (s : State) (e : Bool) (src : Byte) (part clamp coil : Word16) (flow : Byte),
    s.rstHeld = false → s.rp.skipFrame = false → s.rp.station ≠ 0 → s.rp.station ≠ 63 →
    src ≠ s.ownStation → s.mu.config.ioStation = 0 ∨ s.mu.config.ioStation = src.toNat →
    ∃ v t, exec (.frameArrival (mkFrame s.ownStation src 3
            (enc16 part ++ enc16 clamp ++ enc16 coil ++ [flow])) e) s = .next t
      ∧ v = { s with engEn := e, heads := v.heads, interlocks := v.interlocks }
      ∧ v.interlocks.frameTimer = some s.mu.config.interlockTimeout
      ∧ v.interlocks.timeouts = s.interlocks.timeouts
      ∧ (∀ h : HeadId, v.head h =
          { s.head h with inputs :=
            { part := judged (s.head h).inputs.part (part.getLsbD h.val)
                (asked (s.head h).cfg.polPart (part.getLsbD h.val)),
              clamp := judged (s.head h).inputs.clamp (clamp.getLsbD h.val)
                (asked (s.head h).cfg.polClamp (clamp.getLsbD h.val)),
              coil := judged (s.head h).inputs.coil (coil.getLsbD h.val)
                (asked (s.head h).cfg.polCoil (coil.getLsbD h.val)) } })
      ∧ (∀ g : GroupId, v.group g =
          { flow := judged (s.group g).flow (flow.getLsbD g.val) (flow.getLsbD g.val),
            latch := (s.group g).latch })
      ∧ acts s v t (fun g => !flow.getLsbD g.val))
  ∧ ∀ s : State, s.rstHeld = false → s.interlocks.frameTimer = some 0 →
    ∃ v t, exec .interlockFrameTimerExpiry s = .next t
      ∧ v = { s with heads := v.heads, interlocks := v.interlocks }
      ∧ v.interlocks.frameTimer = none
      ∧ v.interlocks.timeouts = min (s.interlocks.timeouts + 1) 65535
      ∧ (∀ h, v.head h =
          { s.head h with inputs :=
            { part := ⟨(s.head h).inputs.part.raw, false, false⟩,
              clamp := ⟨(s.head h).inputs.clamp.raw, false, false⟩,
              coil := ⟨(s.head h).inputs.coil.raw, false, false⟩ } })
      ∧ (∀ g, v.group g = ⟨⟨(s.group g).flow.raw, false, false⟩, (s.group g).latch⟩)
      ∧ acts s v t (fun _ => true)

/-! ### Samples -/

/-- The sequence check of a SAMPLE frame (R50, R51, R52, R53): a head or quality out of range is
MALFORMED; a duplicate or out-of-order sample is counted and changes nothing else; an accepted sample of a
head that holds no joint is kept as reference and last sample, its gap and its WEAK quality counted; that of a
head that holds one, its gap counted likewise, is the next two statements'. -/
def Obligations.SequenceCheckOfSamples : Prop :=
  ∀ (s : State) (e : Bool) (src seq : Byte) (tm cur : Word16) (q fl : Byte),
    s.Consumes src s.mu.config.concentrator →
    (∀ hd : Byte, 16 ≤ hd.toNat ∨ 3 ≤ q.toNat →
      exec (.frameArrival (s.sampleFrame src hd seq tm cur q fl) e) s =
        .next ({ s with engEn := e }.countPort .malformed))
    ∧ ∀ h : HeadId, q.toNat < 3 →
      let frame := s.sampleFrame src (byte h.val) seq tm cur q fl
      let old := (s.head h).hcu.seqRef
      (old = some seq →
        exec (.frameArrival frame e) s = .next ({ s with engEn := e }.countDev h .duplicate))
      ∧ (∀ ref, old = some ref → 128 ≤ (seq - ref).toNat →
        exec (.frameArrival frame e) s = .next ({ s with engEn := e }.countDev h .outOfOrder))
      ∧ (s.holds h = false → old = none ∨ (∃ ref, old = some ref ∧ 1 ≤ (seq - ref).toNat
            ∧ (seq - ref).toNat < 128) →
        ∃ counts : Vector Nat 11,
          (∀ d : Fin 11, counts[d] =
            if (d = 0 ∧ ∃ ref, old = some ref ∧ 2 ≤ (seq - ref).toNat) ∨ (d = 3 ∧ q = 1)
            then min ((s.head h).deviations[d] + 1) 65535 else (s.head h).deviations[d])
          ∧ exec (.frameArrival frame e) s = .next
            ({ s with engEn := e }.modHead h fun x =>
              { x with
                  deviations := counts,
                  hcu := { x.hcu with
                    seqRef := some seq,
                    lastSample := some
                      { seq := seq,
                        temp := if fl.getLsbD 0 then 12000 else min tm.toNat 12000,
                        current := min cur.toNat 4000,
                        quality := if q = 0 then .good else if q = 1 then .weak else .none,
                        saturated := fl.getLsbD 0, time := s.timebase } } }))

/-- An accepted sample of a head that holds a joint, by the steps of R54. Whatever its quality and the head's
state, it is kept, its gap and its WEAK quality counted, filtered by its weight, and runs peak and time above
flow (R51, R52, R55-R58, R60); a usable one above the maximum temperature takes OVERTEMP (R59). In WAIT_GEN and
SUSPENDED nothing follows but the clearing of served-since-sample: no sample timer, control law or exit (R28,
R40, R54, R67). In RUNNING a RAMP takes its origin (R60); the sample timer restarts and the coupling check is
made (R33, R67), and at a count of 3 the head takes COUPLING_LOW (R69). Else a usable one runs setpoint and
control law in a RAMP (R61-R64), and a RAMP or COOL exits on the filtered temperature (R30). A SOAK's steps are
the next statement's. What a fault or a joint's end leaves rests on log 33 and log 35. -/
def Obligations.SampleRunsFilterAndControlLaw : Prop :=
  ∀ (s : State) (e : Bool) (src seq q fl : Byte) (tm cur : Word16) (h : HeadId) (p : ProfileId)
      (rc : Recipe),
    s.Consumes src s.mu.config.concentrator →
    (s.head h).ctx.profile = some p → (s.profile p).recipe = some rc →
    (s.head h).accepts seq = true → q.toNat < 3 →
    let x := s.head h
    let m : Sample :=
      { seq := seq, temp := if fl.getLsbD 0 then 12000 else min tm.toNat 12000,
        current := min cur.toNat 4000,
        quality := if q = 0 then .good else if q = 1 then .weak else .none,
        saturated := fl.getLsbD 0, time := s.timebase }
    let three := 3 * s.slots.period
    let run := exec (.frameArrival (s.sampleFrame src (byte h.val) seq tm cur q fl) e) s
    let hot := q ≠ 2 ∧ ∃ tf, x.tempAfter rc.params m = some tf ∧ rc.params.maxTemp < tf
    (x.ctx.state = .waitGen ∨ x.ctx.state = .suspended →
      let measured := { s with engEn := e }.modHead h fun x => x.sampled none rc.params m three
      (hot → ∃ t, run = .next t ∧ FaultActs h .overtemp measured t)
      ∧ (¬ hot → run = .next (measured.modHead h fun y =>
          { y with ctx := { y.ctx with served := false } })))
    ∧ ∀ seg, x.ctx.state = .running → rc.segments[x.ctx.segIndex]? = some seg →
      let measured := { s with engEn := e }.modHead h fun x => x.sampled (some seg) rc.params m three
      let checked := measured.modHead h fun y => y.checked m three
      (hot → ∃ t, run = .next t ∧ FaultActs h .overtemp measured t)
      ∧ (¬ hot → x.lowCount m = 3 → ∃ t, run = .next t ∧ FaultActs h .couplingLow checked t)
      ∧ (¬ hot → x.lowCount m ≠ 3 → seg.isSoak = false → x.tempAfter rc.params m = none →
          run = .next checked)
      ∧ (∀ tf target rate reach limit ceiling, ¬ hot → x.lowCount m ≠ 3 →
          x.tempAfter rc.params m = some tf → seg = .ramp target rate reach limit ceiling →
        let origin := x.ctx.rampOrigin.getD tf
        let elapsed := (s.timebase - x.ctx.segStart).toNat
        let sp := if origin < target then min target (origin + rate * elapsed / 1000) else target
        let steered := if q = 2 then checked
          else checked.modHcu h fun u => u.controlled rc.params sp tf ceiling
        (tf + reach < target → run = .next steered)
        ∧ (target ≤ tf + reach → x.ctx.entryOffset = 0 → x.ctx.contEntry = false →
          ∃ t, run = .next t ∧ SegmentExited h rc steered t))
      ∧ ∀ tf target limit, ¬ hot → x.lowCount m ≠ 3 → x.tempAfter rc.params m = some tf →
          seg = .cool target limit →
        let cooled := if q = 2 then checked else checked.modHcu h fun u => { u with setpoint := 0 }
        (target < tf → run = .next cooled)
        ∧ (tf ≤ target → x.ctx.entryOffset = 0 → x.ctx.contEntry = false →
          ∃ t, run = .next t ∧ SegmentExited h rc cooled t)

/-- An accepted sample of a head RUNNING in a SOAK that takes no fault by it (R51, R54): after the steps of the
statement before, its gap counted, a usable one runs the control law at the SOAK's target (R61-R64); then, whatever
its quality, the filtered temperature raises the rescue request where it lies below the deficit band, or
withdraws it and ends the rescue where it lies within the recover band (R70, R71, R97, R103, R104). -/
def Obligations.SoakSampleJudgesDeficit : Prop :=
  ∀ (s : State) (e : Bool) (src seq q fl : Byte) (tm cur : Word16) (h : HeadId) (p : ProfileId)
      (rc : Recipe) (target duration ceiling : Nat),
    s.Consumes src s.mu.config.concentrator → (s.head h).ctx.state = .running →
    (s.head h).ctx.profile = some p → (s.profile p).recipe = some rc →
    rc.segments[(s.head h).ctx.segIndex]? = some (.soak target duration ceiling) →
    (s.head h).accepts seq = true → q.toNat < 3 →
    let x := s.head h
    let m : Sample :=
      { seq := seq, temp := if fl.getLsbD 0 then 12000 else min tm.toNat 12000,
        current := min cur.toNat 4000,
        quality := if q = 0 then .good else if q = 1 then .weak else .none,
        saturated := fl.getLsbD 0, time := s.timebase }
    let three := 3 * s.slots.period
    let checked := { s with engEn := e }.modHead h fun x =>
      (x.sampled (some (.soak target duration ceiling)) rc.params m three).checked m three
    let run := exec (.frameArrival (s.sampleFrame src (byte h.val) seq tm cur q fl) e) s
    x.lowCount m ≠ 3 →
    (x.tempAfter rc.params m = none → run = .next checked)
    ∧ ∀ tf, x.tempAfter rc.params m = some tf → q = 2 ∨ tf ≤ rc.params.maxTemp →
      let steered := if q = 2 then checked
        else checked.modHcu h fun u => u.controlled rc.params target tf ceiling
      let deficit := tf + rc.params.deficitBand < target
      let recovered := target ≤ tf + rc.params.recoverBand
      (deficit → run = .next (steered.modHead h fun y =>
        { y with
            rescueReq := y.rescueReq || !s.inRescue h,
            deviations :=
              if x.cfg.masked = true ∧ x.rescueReq = false ∧ s.inRescue h = false then
                y.deviations.set 5 (min (y.deviations[5] + 1) 65535)
              else y.deviations }))
      ∧ (¬ deficit → recovered →
        run = .next (steered.leaving h { steered.head h with rescueReq := false }))
      ∧ (¬ deficit → ¬ recovered → run = .next steered)

/-! ### Generator reports -/

/-- A GENSTAT (R117, R119, R121): out of range it is MALFORMED, where it names an OFF generator too (the model's
choice, log 38); in range, for an OFF generator, it is ignored. Of every other generator, whatever its state and the report, it sets reported
state, voltage and budget, and the status timer where the generator is READY (R115), and credits its delivered
power to the joint of the drive history entry it echoes, or counts it late or mismatched (log 34), in R117's
order before the report acts; a report that leaves the generator's state (R118) does nothing else. -/
def Obligations.GenstatRecordsAndCredits : Prop :=
  ∀ (s : State) (e : Bool) (src : Byte) (v power : Word16) (slot : Byte),
    (∀ gen st hd : Byte, s.Consumes src 0 → 2 ≤ gen.toNat →
      exec (.frameArrival (s.genstatFrame src gen st v power slot hd) e) s =
        .next ({ s with engEn := e }.countPort .malformed))
    ∧ ∀ g : GenId, s.Consumes src (s.mu.config.station g) →
      (∀ st hd : Byte, 4 ≤ st.toNat ∨ (16 ≤ hd.toNat ∧ hd ≠ 255) →
        exec (.frameArrival (s.genstatFrame src (genCode g) st v power slot hd) e) s =
          .next ({ s with engEn := e }.countPort .malformed))
      ∧ (∀ (st : Byte) (hd : Option HeadId), st.toNat < 4 → (s.gen g).state = .off →
        exec (.frameArrival (s.genstatFrame src (genCode g) st v power slot (headCode hd)) e) s =
          .next { s with engEn := e })
      ∧ ∀ (st : Byte) (r : Reported) (hd : Option HeadId), (s.gen g).state ≠ .off →
          ([.standby, .waking, .ready, .fault] : List Reported)[st.toNat]? = some r →
        let old := (s.gen g).state
        ∃ u t, ReportTaken g r v.toNat power.toNat slot hd { s with engEn := e } u
          ∧ exec (.frameArrival (s.genstatFrame src (genCode g) st v power slot (headCode hd)) e) s
              = .next t
          ∧ (t.gen g).reported = some r ∧ (t.gen g).bus = some (min v.toNat 1000)
          ∧ (t.gen g).budget = (u.gen g).budget
          ∧ (t.gen g).history = (s.gen g).history
          ∧ (∀ h, (t.head h).ctx.energy = (u.head h).ctx.energy
            ∧ (t.head h).deviations = (u.head h).deviations)
          ∧ (old = .faulted ∨ (old = .standby ∧ r ≠ .fault) ∨ (old = .ready ∧ r = .ready)
              ∨ (old = .waking ∧ (r = .standby ∨ r = .waking)) → t = u)

/-- What a report does to the generator's state (R113, R117, R118, R122) after it has been recorded and credited
as the statement before says, whatever power it carries: a reported FAULT, or READY's reporting STANDBY or
WAKING, faults the generator, and then its waiting and running heads take GENERATOR_FAULT whole, with their
notices, in ascending number; WAKING's reporting READY makes it READY, and the heads that waited for it enter
RUNNING (R29, R65) under the entry test of R135, in ascending number (log 22; one without a segment stays,
log 24), its fault taken whole; the other reports leave it. A change makes the GEN_STATE notice with the recorded
voltage: an entry into FAULTED before every notice of a head, an entry into READY after it (R122, R124; the cause
byte 0 of an entry into READY is log 16); no change makes none. What a fault leaves rests on log 33 and log 35. -/
def Obligations.GenstatMovesGeneratorState : Prop :=
  ∀ (s : State) (e : Bool) (src : Byte) (v power : Word16) (slot st : Byte) (g : GenId)
      (r : Reported) (hd : Option HeadId),
    s.Consumes src (s.mu.config.station g) →
    ([.standby, .waking, .ready, .fault] : List Reported)[st.toNat]? = some r →
    let old := (s.gen g).state
    old ≠ .off →
    ∃ u t, ReportTaken g r v.toNat power.toNat slot hd { s with engEn := e } u
      ∧ exec (.frameArrival (s.genstatFrame src (genCode g) st v power slot (headCode hd)) e) s = .next t
      ∧ (r = .fault → old ≠ .faulted → GenFaulted g .reportedFault u t)
      ∧ (r = .standby ∨ r = .waking → old = .ready → GenFaulted g .unexpectedState u t)
      ∧ (r = .ready → old = .waking → GenReadied g u t)
      ∧ (old = .faulted ∨ (old = .standby ∧ r ≠ .fault) ∨ (old = .ready ∧ r = .ready)
          ∨ (old = .waking ∧ (r = .standby ∨ r = .waking)) → t = u)

/-! ### Slots -/

/-- A slot expiry (R73, R74, R76, R80): the timer restarts for the configured period and the slot number
increases; each pointer advances, and a pending load completes where it reaches index 0 or the active table
is empty, with a PHASE_LOADED notice (A's before B's, log 22); beside the scheduler's marks on a head (request, counts, derated, served) no head changes. With
time left on the timer the row does nothing (log 2). -/
def Obligations.SlotAdvancesRounds : Prop :=
  ∀ s : State, s.rstHeld = false →
    (s.slots.timer ≠ 0 → exec .slotExpiry s = .next s)
    ∧ (s.slots.timer = 0 →
      let p := fun g : GenId => if (s.gen g).active.length = 0 then none else
        match (s.gen g).pointer with
        | none => some 0
        | some i => if i + 1 < (s.gen g).active.length then some (i + 1) else some 0
      let completes := fun g : GenId =>
        (s.gen g).loadPending = true ∧ (p g = some 0 ∨ (s.gen g).active.length = 0)
      let offer := fun (rp : RingPort) (g : GenId) =>
        if completes g then
          s.offered rp [1, genCode g, byte (s.gen g).staged.length, s.slots.number + 1]
        else rp
      let noticed := offer (offer s.rp .a) .b
      ∃ t, exec .slotExpiry s = .next t
      ∧ t.slots = { timer := s.mu.config.slotPeriod, period := s.mu.config.slotPeriod,
                    number := s.slots.number + 1, exclusions := s.slots.exclusions }
      ∧ (∀ g,
          let x := s.gen g
          let y := t.gen g
          (completes g → y.active = x.staged ∧ y.loadPending = false ∧ y.stagedDiffers = false
            ∧ y.pointer = if x.staged.length = 0 then none else some 0)
          ∧ (¬ completes g → y.active = x.active ∧ y.loadPending = x.loadPending
            ∧ y.stagedDiffers = x.stagedDiffers ∧ y.pointer = p g)
          ∧ y.staged = x.staged ∧ y.state = x.state ∧ y.reported = x.reported ∧ y.bus = x.bus
          ∧ y.budget = x.budget ∧ y.cause = x.cause ∧ y.wakeTimer = x.wakeTimer
          ∧ y.idleTimer = x.idleTimer ∧ y.statusTimer = x.statusTimer ∧ y.rotation = x.rotation)
      ∧ (∀ h,
          let x := s.head h
          let y := t.head h
          y = { x with
                  ctx := { x.ctx with
                    derated := y.ctx.derated, served := y.ctx.served,
                    rescueCount := y.ctx.rescueCount },
                  deviations := y.deviations, rescueReq := y.rescueReq }
          ∧ (x.ctx.derated = true → y.ctx.derated = true)
          ∧ (x.ctx.served = true → y.ctx.served = true))
      ∧ (t.rp.notices = noticed.notices ∧ t.rp.forward = s.rp.forward ∧ t.rp.replies = s.rp.replies
          ∧ (noticed.port ≠ none → t.rp.port = noticed.port))
      ∧ t.profiles = s.profiles ∧ t.mu = s.mu ∧ t.interlocks = s.interlocks
      ∧ t.results = s.results ∧ t.timebase = s.timebase)

/-- Power goes to eligible heads only (the law of R82), chosen in the order of R83-R85: at a slot expiry each
generator with a station gets one DRIVE frame, POWER for the head that is chosen at the least of demand,
power limit and budget, which enters the history, or else IDLE, WAKE or STANDBY by the generator's state; A
and B never feed an exclusion pair (R74, R82-R89, R91). RESCUE_GRANTED is counted for a head that enters
service, BORROWED for a borrowed slot, DERATED, with its flag, where the budget alone set the setpoint, and
served-since-sample is set from the coupling test power on (R85, R90, R98). -/
def Obligations.PowerFramesOnlyToEligibleHeads : Prop :=
  ∀ s : State, s.rstHeld = false → s.slots.timer = 0 →
    ∃ (t : State) (choice : GenId → Option (HeadId × SlotKind)), exec .slotExpiry s = .next t ∧
      let eligible := fun (g : GenId) (h : HeadId) =>
        (s.head h).cfg.binding = some g ∧ (s.head h).ctx.state = .running
          ∧ (∃ seg, s.segment h = some seg ∧ seg.heats = true) ∧ 1 ≤ (s.head h).hcu.demand
          ∧ 1 ≤ (s.head h).cfg.powerLimit ∧ s.verdict h = true ∧ s.latched h = false
          ∧ (s.gen g).state = .ready ∧ 1 ≤ (s.gen g).budget
      let served := fun (g : GenId) => (choice g).map Prod.fst
      let barred := fun (g : GenId) (h : HeadId) =>
        g = .b ∧ ∃ k, served .a = some k
          ∧ ∃ q ∈ s.slots.exclusions, samePair q (k, h) = true
      let soak := fun h : HeadId => ∃ a d c, s.segment h = some (.soak a d c)
      let watts := fun (g : GenId) (h : HeadId) =>
        min (s.head h).hcu.demand (min (s.head h).cfg.powerLimit (s.gen g).budget)
      let driven := fun (g : GenId) (h : HeadId) =>
        served g = some h ∧ s.mu.config.station g ≠ 0
      let derates := fun h : HeadId => ∃ g, driven g h ∧ (s.gen g).budget < (s.head h).hcu.demand
        ∧ (s.gen g).budget < (s.head h).cfg.powerLimit
      (∀ g, SlotServes (t.gen g) (fun h => eligible g h ∧ ¬ barred g h) soak (choice g)
        ∧ (∀ h, served g = some h → eligible g h ∧ ¬ barred g h ∧ 1 ≤ watts g h)
        ∧ (served g = none → ∀ (i : Fin 32) h, i.val < (t.gen g).active.length →
            (t.gen g).active.entries[i] = some h → eligible g h → barred g h)
        ∧ (s.mu.config.station g = 0 → (t.gen g).history = (s.gen g).history)
        ∧ (s.mu.config.station g ≠ 0 →
          let frame := fun payload : List Byte =>
            (⟨mkFrame (byte (s.mu.config.station g)) s.ownStation 8 payload, false⟩ : TxFrame)
          let sent := fun payload : List Byte =>
            t.rp.port = some (frame payload) ∨ (g, frame payload) ∈ t.rp.drive
          match served g with
          | some h =>
            sent ([s.slots.number + 1, 3, byte h.val] ++ le16 (watts g h))
              ∧ (t.gen g).history =
                  (let l := (s.gen g).history ++
                      [⟨s.slots.number + 1, h, (s.head h).ctx.serial, watts g h⟩]
                   l.drop (l.length - 4))
          | none =>
            sent [s.slots.number + 1,
                (match (s.gen g).state with
                 | .ready => 2
                 | .waking => 1
                 | _ => 0), 255, 0, 0]
              ∧ (t.gen g).history = (s.gen g).history))
      ∧ ∀ h : HeadId,
        ((t.head h).ctx.derated = true ↔ (s.head h).ctx.derated = true ∨ derates h)
        ∧ ((t.head h).ctx.served = true ↔ (s.head h).ctx.served = true
            ∨ ∃ g, driven g h ∧ (s.head h).cfg.couplingPower ≤ watts g h)
        ∧ ∀ d : Fin 11,
          let counted := (d = 4 ∧ ∃ g, (t.gen g).inService = some h ∧ (s.gen g).inService ≠ some h)
            ∨ (d = 6 ∧ ∃ g, choice g = some (h, .borrowed)) ∨ (d = 7 ∧ derates h)
          (counted → (t.head h).deviations[d] = min ((s.head h).deviations[d] + 1) 65535)
            ∧ (¬ counted → (t.head h).deviations[d] = (s.head h).deviations[d])

/-- The resolution at a slot expiry (R98-R101): an empty place goes to the candidate lowest in priority
value and then in number, or in ROTATING mode first in the rotation order; a held place is preempted in
FIXED mode by a strictly better winner, and kept otherwise. The premise is that a head in service is bound
to its generator (R103's law). -/
def Obligations.RescueGrantsBestCandidate : Prop :=
  ∀ (s : State) (g : GenId), s.rstHeld = false → s.slots.timer = 0 → s.RescueLegal →
    let asks := fun h : HeadId => (s.head h).cfg.binding = some g ∧ (s.head h).rescueReq = true
      ∧ (s.head h).cfg.masked = false
    let rank := fun h : HeadId => (s.head h).cfg.priority * 16 + h.val
    let best := fun h : HeadId => asks h ∧ ∀ k, asks k → rank h ≤ rank k
    let granted := fun (h : HeadId) (t : State) =>
      (t.gen g).inService = some h ∧ (t.gen g).limitTimer = some s.mu.config.rescueLimit
        ∧ (t.head h).rescueReq = false
        ∧ (t.head h).ctx.rescueCount = min ((s.head h).ctx.rescueCount + 1) 65535
        ∧ ∀ k, k ≠ h → (s.head k).cfg.binding = some g → (s.gen g).inService ≠ some k →
            (t.head k).rescueReq = (s.head k).rescueReq
    let kept := fun t : State =>
      (t.gen g).inService = (s.gen g).inService ∧ (t.gen g).limitTimer = (s.gen g).limitTimer
        ∧ ∀ k, (s.head k).cfg.binding = some g → (t.head k).rescueReq = (s.head k).rescueReq
    ∃ t, exec .slotExpiry s = .next t
      ∧ ((∀ h, ¬ asks h) → kept t)
      ∧ (s.mu.config.mode g = .fixed → ∀ h, best h →
        ((s.gen g).inService = none → granted h t)
        ∧ ∀ k, (s.gen g).inService = some k →
          ((s.head h).cfg.priority < (s.head k).cfg.priority →
            granted h t ∧ (t.head k).rescueReq = true
              ∧ (t.head k).ctx.rescueCount = (s.head k).ctx.rescueCount)
          ∧ ((s.head k).cfg.priority ≤ (s.head h).cfg.priority → kept t))
      ∧ (s.mu.config.mode g = .rotating →
        ((s.gen g).inService ≠ none → kept t)
        ∧ ∀ (pre post : List HeadId) (h : HeadId), (s.gen g).inService = none →
            (s.gen g).rotation = pre ++ h :: post → asks h → (∀ k ∈ pre, ¬ asks k) →
          granted h t)

/-! ### Laws that every step keeps -/

/-- Every law of Sys2Proof/Safety.lean holds right after a power-on reset. -/
def Obligations.LegalAtReset : Prop :=
  let s := State.reset
  s.QueuesLegal ∧ s.CountersLegal ∧ s.JointsLegal ∧ s.TimersLegal ∧ s.RescueLegal ∧ s.ProfilesLegal
    ∧ s.HeatsLegal ∧ s.FiguresLegal ∧ s.FaultsLegal ∧ s.InputsLegal ∧ s.TablesLegal ∧ s.ConfigLegal
    ∧ s.GensLegal

/-- The queues and histories stay within their bounds with one drive place per generator, the port is free
only while nothing waits, and no counter leaves its 16 bits (R91, R92, R126, R155, R182-R185, R188). -/
def Obligations.StepKeepsQueuesAndCounters : Prop :=
  ∀ s t : State, s.QueuesLegal → s.CountersLegal → step s = .next t →
    t.QueuesLegal ∧ t.CountersLegal

/-- Every VALID record stays legal; a head holds a reservation exactly while it holds a joint, and then its
bound record is VALID at the revision its START saw with its segment index inside; results and reservations
never exceed 48 (R13, R15, R36, R40, R161). -/
def Obligations.StepKeepsJointsLegal : Prop :=
  ∀ s t : State, s.JointsLegal → step s = .next t → t.JointsLegal

/-- Every timer runs exactly where its rule lets it run (R29, R33, R40, R107, R112-R116). -/
def Obligations.StepKeepsTimersLegal : Prop :=
  ∀ s t : State, s.JointsLegal → s.TimersLegal → step s = .next t → t.TimersLegal

/-- Each generator has at most one head in rescue service, bound to it and RUNNING in a SOAK; requests are
pending only in a SOAK; the rotation orders stay orders of the sixteen heads (R97, R102, R103). -/
def Obligations.StepKeepsRescueLegal : Prop :=
  ∀ s t : State, s.JointsLegal → s.RescueLegal → step s = .next t → t.RescueLegal

/-- Temperatures stay within 0-12000, integrator and demand within the ceiling of the running segment, and
a head that is not RUNNING has demand 0 (R56, R61, R63, R64, R66). -/
def Obligations.StepKeepsHeatLegal : Prop :=
  ∀ s t : State, s.ProfilesLegal → s.HeatsLegal → step s = .next t → t.HeatsLegal

/-- A capture record is present exactly while the pointer names a kind, that kind is present in the
status, and an input that is SATISFIED has no debounce mark (R126, R128, R142, R143, R150). -/
def Obligations.StepKeepsFaultsAndInputs : Prop :=
  ∀ s t : State, s.FaultsLegal → s.InputsLegal → step s = .next t →
    t.FaultsLegal ∧ t.InputsLegal

/-- The phase tables, pointers and exclusion pairs, the configuration's ranges, the fixed severities and
the generators' states and budgets stay legal (R22, R75, R86, R110, R119, R120, R140, R194). -/
def Obligations.StepKeepsTablesAndConfig : Prop :=
  ∀ s t : State, s.TablesLegal → s.ConfigLegal → s.GensLegal → step s = .next t →
    t.TablesLegal ∧ t.ConfigLegal ∧ t.GensLegal

/-- While a head holds one joint its figures never decrease and its joint stays the same: energy, time
above flow, peak and rescue count (R10, R21, R57, R58, R98, R121). -/
def Obligations.JointFiguresNeverDecrease : Prop :=
  ∀ s t : State, s.FiguresLegal → step s = .next t →
    t.FiguresLegal
      ∧ ∀ h, s.holds h = true → t.holds h = true →
        let c := (s.head h).ctx
        let d := (t.head h).ctx
        d.serial = c.serial ∧ d.profile = c.profile ∧ d.revision = c.revision
          ∧ d.jointStart = c.jointStart ∧ c.energy ≤ d.energy
          ∧ c.timeAboveFlow ≤ d.timeAboveFlow ∧ c.peak ≤ d.peak ∧ c.rescueCount ≤ d.rescueCount
end

