-- ==== Sys2Proof/Laws/State.lean ====
section
/-! SUPPORT. One lemma per field per update of the state, and what reading a head, generator, group or profile
gives after each update. -/

namespace Sys2Proof.Machine

variable (s : State)

/-! ### modHead -/

@[simp] theorem State.modHead_timebase (h : HeadId) (f : Head → Head) :
    (s.modHead h f).timebase = s.timebase := rfl
@[simp] theorem State.modHead_rstHeld (h : HeadId) (f : Head → Head) :
    (s.modHead h f).rstHeld = s.rstHeld := rfl
@[simp] theorem State.modHead_engEn (h : HeadId) (f : Head → Head) :
    (s.modHead h f).engEn = s.engEn := rfl
@[simp] theorem State.modHead_rp (h : HeadId) (f : Head → Head) :
    (s.modHead h f).rp = s.rp := rfl
@[simp] theorem State.modHead_mu (h : HeadId) (f : Head → Head) :
    (s.modHead h f).mu = s.mu := rfl
@[simp] theorem State.modHead_profiles (h : HeadId) (f : Head → Head) :
    (s.modHead h f).profiles = s.profiles := rfl
@[simp] theorem State.modHead_gens (h : HeadId) (f : Head → Head) :
    (s.modHead h f).gens = s.gens := rfl
@[simp] theorem State.modHead_slots (h : HeadId) (f : Head → Head) :
    (s.modHead h f).slots = s.slots := rfl
@[simp] theorem State.modHead_interlocks (h : HeadId) (f : Head → Head) :
    (s.modHead h f).interlocks = s.interlocks := rfl
@[simp] theorem State.modHead_results (h : HeadId) (f : Head → Head) :
    (s.modHead h f).results = s.results := rfl
@[simp] theorem State.modHead_pending (h : HeadId) (f : Head → Head) :
    (s.modHead h f).pending = s.pending := rfl

/-! ### modCtx -/

@[simp] theorem State.modCtx_timebase (h : HeadId) (f : HeadContext → HeadContext) :
    (s.modCtx h f).timebase = s.timebase := rfl
@[simp] theorem State.modCtx_rstHeld (h : HeadId) (f : HeadContext → HeadContext) :
    (s.modCtx h f).rstHeld = s.rstHeld := rfl
@[simp] theorem State.modCtx_engEn (h : HeadId) (f : HeadContext → HeadContext) :
    (s.modCtx h f).engEn = s.engEn := rfl
@[simp] theorem State.modCtx_rp (h : HeadId) (f : HeadContext → HeadContext) :
    (s.modCtx h f).rp = s.rp := rfl
@[simp] theorem State.modCtx_mu (h : HeadId) (f : HeadContext → HeadContext) :
    (s.modCtx h f).mu = s.mu := rfl
@[simp] theorem State.modCtx_profiles (h : HeadId) (f : HeadContext → HeadContext) :
    (s.modCtx h f).profiles = s.profiles := rfl
@[simp] theorem State.modCtx_gens (h : HeadId) (f : HeadContext → HeadContext) :
    (s.modCtx h f).gens = s.gens := rfl
@[simp] theorem State.modCtx_slots (h : HeadId) (f : HeadContext → HeadContext) :
    (s.modCtx h f).slots = s.slots := rfl
@[simp] theorem State.modCtx_interlocks (h : HeadId) (f : HeadContext → HeadContext) :
    (s.modCtx h f).interlocks = s.interlocks := rfl
@[simp] theorem State.modCtx_results (h : HeadId) (f : HeadContext → HeadContext) :
    (s.modCtx h f).results = s.results := rfl
@[simp] theorem State.modCtx_pending (h : HeadId) (f : HeadContext → HeadContext) :
    (s.modCtx h f).pending = s.pending := rfl

/-! ### modHcu -/

@[simp] theorem State.modHcu_timebase (h : HeadId) (f : Hcu → Hcu) :
    (s.modHcu h f).timebase = s.timebase := rfl
@[simp] theorem State.modHcu_rstHeld (h : HeadId) (f : Hcu → Hcu) :
    (s.modHcu h f).rstHeld = s.rstHeld := rfl
@[simp] theorem State.modHcu_engEn (h : HeadId) (f : Hcu → Hcu) :
    (s.modHcu h f).engEn = s.engEn := rfl
@[simp] theorem State.modHcu_rp (h : HeadId) (f : Hcu → Hcu) :
    (s.modHcu h f).rp = s.rp := rfl
@[simp] theorem State.modHcu_mu (h : HeadId) (f : Hcu → Hcu) :
    (s.modHcu h f).mu = s.mu := rfl
@[simp] theorem State.modHcu_profiles (h : HeadId) (f : Hcu → Hcu) :
    (s.modHcu h f).profiles = s.profiles := rfl
@[simp] theorem State.modHcu_gens (h : HeadId) (f : Hcu → Hcu) :
    (s.modHcu h f).gens = s.gens := rfl
@[simp] theorem State.modHcu_slots (h : HeadId) (f : Hcu → Hcu) :
    (s.modHcu h f).slots = s.slots := rfl
@[simp] theorem State.modHcu_interlocks (h : HeadId) (f : Hcu → Hcu) :
    (s.modHcu h f).interlocks = s.interlocks := rfl
@[simp] theorem State.modHcu_results (h : HeadId) (f : Hcu → Hcu) :
    (s.modHcu h f).results = s.results := rfl
@[simp] theorem State.modHcu_pending (h : HeadId) (f : Hcu → Hcu) :
    (s.modHcu h f).pending = s.pending := rfl

/-! ### modAllHeads -/

@[simp] theorem State.modAllHeads_timebase (f : HeadId → Head → Head) :
    (s.modAllHeads f).timebase = s.timebase := rfl
@[simp] theorem State.modAllHeads_rstHeld (f : HeadId → Head → Head) :
    (s.modAllHeads f).rstHeld = s.rstHeld := rfl
@[simp] theorem State.modAllHeads_engEn (f : HeadId → Head → Head) :
    (s.modAllHeads f).engEn = s.engEn := rfl
@[simp] theorem State.modAllHeads_rp (f : HeadId → Head → Head) :
    (s.modAllHeads f).rp = s.rp := rfl
@[simp] theorem State.modAllHeads_mu (f : HeadId → Head → Head) :
    (s.modAllHeads f).mu = s.mu := rfl
@[simp] theorem State.modAllHeads_profiles (f : HeadId → Head → Head) :
    (s.modAllHeads f).profiles = s.profiles := rfl
@[simp] theorem State.modAllHeads_gens (f : HeadId → Head → Head) :
    (s.modAllHeads f).gens = s.gens := rfl
@[simp] theorem State.modAllHeads_slots (f : HeadId → Head → Head) :
    (s.modAllHeads f).slots = s.slots := rfl
@[simp] theorem State.modAllHeads_interlocks (f : HeadId → Head → Head) :
    (s.modAllHeads f).interlocks = s.interlocks := rfl
@[simp] theorem State.modAllHeads_results (f : HeadId → Head → Head) :
    (s.modAllHeads f).results = s.results := rfl
@[simp] theorem State.modAllHeads_pending (f : HeadId → Head → Head) :
    (s.modAllHeads f).pending = s.pending := rfl

/-! ### modGen -/

@[simp] theorem State.modGen_timebase (g : GenId) (f : Generator → Generator) :
    (s.modGen g f).timebase = s.timebase := by cases g <;> rfl
@[simp] theorem State.modGen_rstHeld (g : GenId) (f : Generator → Generator) :
    (s.modGen g f).rstHeld = s.rstHeld := by cases g <;> rfl
@[simp] theorem State.modGen_engEn (g : GenId) (f : Generator → Generator) :
    (s.modGen g f).engEn = s.engEn := by cases g <;> rfl
@[simp] theorem State.modGen_rp (g : GenId) (f : Generator → Generator) :
    (s.modGen g f).rp = s.rp := by cases g <;> rfl
@[simp] theorem State.modGen_mu (g : GenId) (f : Generator → Generator) :
    (s.modGen g f).mu = s.mu := by cases g <;> rfl
@[simp] theorem State.modGen_profiles (g : GenId) (f : Generator → Generator) :
    (s.modGen g f).profiles = s.profiles := by cases g <;> rfl
@[simp] theorem State.modGen_heads (g : GenId) (f : Generator → Generator) :
    (s.modGen g f).heads = s.heads := by cases g <;> rfl
@[simp] theorem State.modGen_slots (g : GenId) (f : Generator → Generator) :
    (s.modGen g f).slots = s.slots := by cases g <;> rfl
@[simp] theorem State.modGen_interlocks (g : GenId) (f : Generator → Generator) :
    (s.modGen g f).interlocks = s.interlocks := by cases g <;> rfl
@[simp] theorem State.modGen_results (g : GenId) (f : Generator → Generator) :
    (s.modGen g f).results = s.results := by cases g <;> rfl
@[simp] theorem State.modGen_pending (g : GenId) (f : Generator → Generator) :
    (s.modGen g f).pending = s.pending := by cases g <;> rfl

/-! ### modGroup -/

@[simp] theorem State.modGroup_timebase (g : GroupId) (f : Group → Group) :
    (s.modGroup g f).timebase = s.timebase := rfl
@[simp] theorem State.modGroup_rstHeld (g : GroupId) (f : Group → Group) :
    (s.modGroup g f).rstHeld = s.rstHeld := rfl
@[simp] theorem State.modGroup_engEn (g : GroupId) (f : Group → Group) :
    (s.modGroup g f).engEn = s.engEn := rfl
@[simp] theorem State.modGroup_rp (g : GroupId) (f : Group → Group) :
    (s.modGroup g f).rp = s.rp := rfl
@[simp] theorem State.modGroup_mu (g : GroupId) (f : Group → Group) :
    (s.modGroup g f).mu = s.mu := rfl
@[simp] theorem State.modGroup_profiles (g : GroupId) (f : Group → Group) :
    (s.modGroup g f).profiles = s.profiles := rfl
@[simp] theorem State.modGroup_heads (g : GroupId) (f : Group → Group) :
    (s.modGroup g f).heads = s.heads := rfl
@[simp] theorem State.modGroup_gens (g : GroupId) (f : Group → Group) :
    (s.modGroup g f).gens = s.gens := rfl
@[simp] theorem State.modGroup_slots (g : GroupId) (f : Group → Group) :
    (s.modGroup g f).slots = s.slots := rfl
@[simp] theorem State.modGroup_results (g : GroupId) (f : Group → Group) :
    (s.modGroup g f).results = s.results := rfl
@[simp] theorem State.modGroup_pending (g : GroupId) (f : Group → Group) :
    (s.modGroup g f).pending = s.pending := rfl

/-! ### modProfile -/

@[simp] theorem State.modProfile_timebase (p : ProfileId) (f : ProfileRecord → ProfileRecord) :
    (s.modProfile p f).timebase = s.timebase := rfl
@[simp] theorem State.modProfile_rstHeld (p : ProfileId) (f : ProfileRecord → ProfileRecord) :
    (s.modProfile p f).rstHeld = s.rstHeld := rfl
@[simp] theorem State.modProfile_engEn (p : ProfileId) (f : ProfileRecord → ProfileRecord) :
    (s.modProfile p f).engEn = s.engEn := rfl
@[simp] theorem State.modProfile_rp (p : ProfileId) (f : ProfileRecord → ProfileRecord) :
    (s.modProfile p f).rp = s.rp := rfl
@[simp] theorem State.modProfile_mu (p : ProfileId) (f : ProfileRecord → ProfileRecord) :
    (s.modProfile p f).mu = s.mu := rfl
@[simp] theorem State.modProfile_heads (p : ProfileId) (f : ProfileRecord → ProfileRecord) :
    (s.modProfile p f).heads = s.heads := rfl
@[simp] theorem State.modProfile_gens (p : ProfileId) (f : ProfileRecord → ProfileRecord) :
    (s.modProfile p f).gens = s.gens := rfl
@[simp] theorem State.modProfile_slots (p : ProfileId) (f : ProfileRecord → ProfileRecord) :
    (s.modProfile p f).slots = s.slots := rfl
@[simp] theorem State.modProfile_interlocks (p : ProfileId) (f : ProfileRecord → ProfileRecord) :
    (s.modProfile p f).interlocks = s.interlocks := rfl
@[simp] theorem State.modProfile_results (p : ProfileId) (f : ProfileRecord → ProfileRecord) :
    (s.modProfile p f).results = s.results := rfl
@[simp] theorem State.modProfile_pending (p : ProfileId) (f : ProfileRecord → ProfileRecord) :
    (s.modProfile p f).pending = s.pending := rfl

/-! ### modRp -/

@[simp] theorem State.modRp_timebase (f : RingPort → RingPort) :
    (s.modRp f).timebase = s.timebase := rfl
@[simp] theorem State.modRp_rstHeld (f : RingPort → RingPort) :
    (s.modRp f).rstHeld = s.rstHeld := rfl
@[simp] theorem State.modRp_engEn (f : RingPort → RingPort) :
    (s.modRp f).engEn = s.engEn := rfl
@[simp] theorem State.modRp_mu (f : RingPort → RingPort) :
    (s.modRp f).mu = s.mu := rfl
@[simp] theorem State.modRp_profiles (f : RingPort → RingPort) :
    (s.modRp f).profiles = s.profiles := rfl
@[simp] theorem State.modRp_heads (f : RingPort → RingPort) :
    (s.modRp f).heads = s.heads := rfl
@[simp] theorem State.modRp_gens (f : RingPort → RingPort) :
    (s.modRp f).gens = s.gens := rfl
@[simp] theorem State.modRp_slots (f : RingPort → RingPort) :
    (s.modRp f).slots = s.slots := rfl
@[simp] theorem State.modRp_interlocks (f : RingPort → RingPort) :
    (s.modRp f).interlocks = s.interlocks := rfl
@[simp] theorem State.modRp_results (f : RingPort → RingPort) :
    (s.modRp f).results = s.results := rfl
@[simp] theorem State.modRp_pending (f : RingPort → RingPort) :
    (s.modRp f).pending = s.pending := rfl
@[simp] theorem State.modRp_rp (f : RingPort → RingPort) : (s.modRp f).rp = f s.rp := rfl

/-! ### modMu -/

@[simp] theorem State.modMu_timebase (f : Management → Management) :
    (s.modMu f).timebase = s.timebase := rfl
@[simp] theorem State.modMu_rstHeld (f : Management → Management) :
    (s.modMu f).rstHeld = s.rstHeld := rfl
@[simp] theorem State.modMu_engEn (f : Management → Management) :
    (s.modMu f).engEn = s.engEn := rfl
@[simp] theorem State.modMu_rp (f : Management → Management) :
    (s.modMu f).rp = s.rp := rfl
@[simp] theorem State.modMu_profiles (f : Management → Management) :
    (s.modMu f).profiles = s.profiles := rfl
@[simp] theorem State.modMu_heads (f : Management → Management) :
    (s.modMu f).heads = s.heads := rfl
@[simp] theorem State.modMu_gens (f : Management → Management) :
    (s.modMu f).gens = s.gens := rfl
@[simp] theorem State.modMu_slots (f : Management → Management) :
    (s.modMu f).slots = s.slots := rfl
@[simp] theorem State.modMu_interlocks (f : Management → Management) :
    (s.modMu f).interlocks = s.interlocks := rfl
@[simp] theorem State.modMu_results (f : Management → Management) :
    (s.modMu f).results = s.results := rfl
@[simp] theorem State.modMu_pending (f : Management → Management) :
    (s.modMu f).pending = s.pending := rfl
@[simp] theorem State.modMu_mu (f : Management → Management) :
    (s.modMu f).mu = f s.mu := rfl

/-! ### countDev -/

@[simp] theorem State.countDev_timebase (h : HeadId) (d : Deviation) :
    (s.countDev h d).timebase = s.timebase := rfl
@[simp] theorem State.countDev_rstHeld (h : HeadId) (d : Deviation) :
    (s.countDev h d).rstHeld = s.rstHeld := rfl
@[simp] theorem State.countDev_engEn (h : HeadId) (d : Deviation) :
    (s.countDev h d).engEn = s.engEn := rfl
@[simp] theorem State.countDev_rp (h : HeadId) (d : Deviation) :
    (s.countDev h d).rp = s.rp := rfl
@[simp] theorem State.countDev_mu (h : HeadId) (d : Deviation) :
    (s.countDev h d).mu = s.mu := rfl
@[simp] theorem State.countDev_profiles (h : HeadId) (d : Deviation) :
    (s.countDev h d).profiles = s.profiles := rfl
@[simp] theorem State.countDev_gens (h : HeadId) (d : Deviation) :
    (s.countDev h d).gens = s.gens := rfl
@[simp] theorem State.countDev_slots (h : HeadId) (d : Deviation) :
    (s.countDev h d).slots = s.slots := rfl
@[simp] theorem State.countDev_interlocks (h : HeadId) (d : Deviation) :
    (s.countDev h d).interlocks = s.interlocks := rfl
@[simp] theorem State.countDev_results (h : HeadId) (d : Deviation) :
    (s.countDev h d).results = s.results := rfl
@[simp] theorem State.countDev_pending (h : HeadId) (d : Deviation) :
    (s.countDev h d).pending = s.pending := rfl

/-! ### countPort -/

@[simp] theorem State.countPort_timebase (c : PortCounter) :
    (s.countPort c).timebase = s.timebase := rfl
@[simp] theorem State.countPort_rstHeld (c : PortCounter) :
    (s.countPort c).rstHeld = s.rstHeld := rfl
@[simp] theorem State.countPort_engEn (c : PortCounter) :
    (s.countPort c).engEn = s.engEn := rfl
@[simp] theorem State.countPort_mu (c : PortCounter) :
    (s.countPort c).mu = s.mu := rfl
@[simp] theorem State.countPort_profiles (c : PortCounter) :
    (s.countPort c).profiles = s.profiles := rfl
@[simp] theorem State.countPort_heads (c : PortCounter) :
    (s.countPort c).heads = s.heads := rfl
@[simp] theorem State.countPort_gens (c : PortCounter) :
    (s.countPort c).gens = s.gens := rfl
@[simp] theorem State.countPort_slots (c : PortCounter) :
    (s.countPort c).slots = s.slots := rfl
@[simp] theorem State.countPort_interlocks (c : PortCounter) :
    (s.countPort c).interlocks = s.interlocks := rfl
@[simp] theorem State.countPort_results (c : PortCounter) :
    (s.countPort c).results = s.results := rfl
@[simp] theorem State.countPort_pending (c : PortCounter) :
    (s.countPort c).pending = s.pending := rfl
@[simp] theorem State.countPort_rp (c : PortCounter) : (s.countPort c).rp = s.rp.count c := rfl

/-! ### notice: only the Ring Port changes -/

@[simp] theorem State.notice_timebase (b : List Byte) : (s.notice b).timebase = s.timebase := by
  unfold State.notice; split <;> rfl
@[simp] theorem State.notice_rstHeld (b : List Byte) : (s.notice b).rstHeld = s.rstHeld := by
  unfold State.notice; split <;> rfl
@[simp] theorem State.notice_engEn (b : List Byte) : (s.notice b).engEn = s.engEn := by
  unfold State.notice; split <;> rfl
@[simp] theorem State.notice_mu (b : List Byte) : (s.notice b).mu = s.mu := by
  unfold State.notice; split <;> rfl
@[simp] theorem State.notice_profiles (b : List Byte) : (s.notice b).profiles = s.profiles := by
  unfold State.notice; split <;> rfl
@[simp] theorem State.notice_heads (b : List Byte) : (s.notice b).heads = s.heads := by
  unfold State.notice; split <;> rfl
@[simp] theorem State.notice_gens (b : List Byte) : (s.notice b).gens = s.gens := by
  unfold State.notice; split <;> rfl
@[simp] theorem State.notice_slots (b : List Byte) : (s.notice b).slots = s.slots := by
  unfold State.notice; split <;> rfl
@[simp] theorem State.notice_interlocks (b : List Byte) : (s.notice b).interlocks = s.interlocks := by
  unfold State.notice; split <;> rfl
@[simp] theorem State.notice_results (b : List Byte) : (s.notice b).results = s.results := by
  unfold State.notice; split <;> rfl
@[simp] theorem State.notice_pending (b : List Byte) : (s.notice b).pending = s.pending := by
  unfold State.notice; split <;> rfl
@[simp] theorem State.notice_rp (b : List Byte) : (s.notice b).rp = s.offered s.rp b := by
  unfold State.notice State.offered; split <;> rfl

/-! ### answered: ENG_EN and the Ring Port change -/

@[simp] theorem State.answered_timebase (r : ReqHead) (c : Byte) (st : Status) (d : List Byte) :
    (s.answered r c st d).timebase = s.timebase := rfl
@[simp] theorem State.answered_rstHeld (r : ReqHead) (c : Byte) (st : Status) (d : List Byte) :
    (s.answered r c st d).rstHeld = s.rstHeld := rfl
@[simp] theorem State.answered_mu (r : ReqHead) (c : Byte) (st : Status) (d : List Byte) :
    (s.answered r c st d).mu = s.mu := rfl
@[simp] theorem State.answered_profiles (r : ReqHead) (c : Byte) (st : Status) (d : List Byte) :
    (s.answered r c st d).profiles = s.profiles := rfl
@[simp] theorem State.answered_heads (r : ReqHead) (c : Byte) (st : Status) (d : List Byte) :
    (s.answered r c st d).heads = s.heads := rfl
@[simp] theorem State.answered_gens (r : ReqHead) (c : Byte) (st : Status) (d : List Byte) :
    (s.answered r c st d).gens = s.gens := rfl
@[simp] theorem State.answered_slots (r : ReqHead) (c : Byte) (st : Status) (d : List Byte) :
    (s.answered r c st d).slots = s.slots := rfl
@[simp] theorem State.answered_interlocks (r : ReqHead) (c : Byte) (st : Status) (d : List Byte) :
    (s.answered r c st d).interlocks = s.interlocks := rfl
@[simp] theorem State.answered_results (r : ReqHead) (c : Byte) (st : Status) (d : List Byte) :
    (s.answered r c st d).results = s.results := rfl
@[simp] theorem State.answered_pending (r : ReqHead) (c : Byte) (st : Status) (d : List Byte) :
    (s.answered r c st d).pending = s.pending := rfl

/-! ### Reads depend on one field -/

/-- A head is read from the heads alone. -/
theorem State.head_of_heads {s t : State} (e : t.heads = s.heads) (h : HeadId) :
    t.head h = s.head h := by simp only [State.head, e]

/-- A generator is read from the generators alone. -/
theorem State.gen_of_gens {s t : State} (e : t.gens = s.gens) (g : GenId) : t.gen g = s.gen g := by
  cases g <;> simp only [State.gen, e]

/-- A group is read from the Interlock Monitor alone. -/
theorem State.group_of_interlocks {s t : State} (e : t.interlocks = s.interlocks) (g : GroupId) :
    t.group g = s.group g := by simp only [State.group, e]

/-- A profile is read from the Profile Store alone. -/
theorem State.profile_of_profiles {s t : State} (e : t.profiles = s.profiles) (p : ProfileId) :
    t.profile p = s.profile p := by simp only [State.profile, e]

/-! ### Reads after updates -/

@[simp] theorem State.head_modHead_same (h : HeadId) (f : Head → Head) :
    (s.modHead h f).head h = f (s.head h) := by
  simp [State.modHead, State.head]

@[simp] theorem State.head_modHead_other {h k : HeadId} (f : Head → Head) (ne : k ≠ h) :
    (s.modHead h f).head k = s.head k := by
  have : h.val ≠ k.val := fun e => ne (Fin.ext e.symm)
  simp [State.modHead, State.head, Vector.getElem_set_ne, this]

@[simp] theorem State.head_modAllHeads (f : HeadId → Head → Head) (h : HeadId) :
    (s.modAllHeads f).head h = f h (s.head h) := by
  simp [State.modAllHeads, State.head]

@[simp] theorem State.gen_modGen_same (g : GenId) (f : Generator → Generator) :
    (s.modGen g f).gen g = f (s.gen g) := by cases g <;> rfl

@[simp] theorem State.gen_modGen_other {g k : GenId} (f : Generator → Generator) (ne : k ≠ g) :
    (s.modGen g f).gen k = s.gen k := by cases g <;> cases k <;> first | rfl | exact absurd rfl ne

@[simp] theorem State.group_modGroup_same (g : GroupId) (f : Group → Group) :
    (s.modGroup g f).group g = f (s.group g) := by
  simp [State.modGroup, State.group]

@[simp] theorem State.group_modGroup_other {g k : GroupId} (f : Group → Group) (ne : k ≠ g) :
    (s.modGroup g f).group k = s.group k := by
  have : g.val ≠ k.val := fun e => ne (Fin.ext e.symm)
  simp [State.modGroup, State.group, Vector.getElem_set_ne, this]

@[simp] theorem State.profile_modProfile_same (p : ProfileId) (f : ProfileRecord → ProfileRecord) :
    (s.modProfile p f).profile p = f (s.profile p) := by
  simp [State.modProfile, State.profile]

@[simp] theorem State.profile_modProfile_other {p q : ProfileId}
    (f : ProfileRecord → ProfileRecord) (ne : q ≠ p) :
    (s.modProfile p f).profile q = s.profile q := by
  have : p.val ≠ q.val := fun e => ne (Fin.ext e.symm)
  simp [State.modProfile, State.profile, Vector.getElem_set_ne, this]

@[simp] theorem State.head_modGen (g : GenId) (f : Generator → Generator) (h : HeadId) :
    (s.modGen g f).head h = s.head h := State.head_of_heads (by simp) h

@[simp] theorem State.head_notice (b : List Byte) (h : HeadId) : (s.notice b).head h = s.head h :=
  State.head_of_heads (by simp) h

@[simp] theorem State.head_modRp (f : RingPort → RingPort) (h : HeadId) :
    (s.modRp f).head h = s.head h := rfl

@[simp] theorem State.head_modMu (f : Management → Management) (h : HeadId) :
    (s.modMu f).head h = s.head h := rfl

@[simp] theorem State.head_modGroup (g : GroupId) (f : Group → Group) (h : HeadId) :
    (s.modGroup g f).head h = s.head h := rfl

@[simp] theorem State.head_modProfile (p : ProfileId) (f : ProfileRecord → ProfileRecord)
    (h : HeadId) : (s.modProfile p f).head h = s.head h := rfl

@[simp] theorem State.gen_modHead (h : HeadId) (f : Head → Head) (g : GenId) :
    (s.modHead h f).gen g = s.gen g := State.gen_of_gens rfl g

@[simp] theorem State.gen_modAllHeads (f : HeadId → Head → Head) (g : GenId) :
    (s.modAllHeads f).gen g = s.gen g := State.gen_of_gens rfl g

@[simp] theorem State.gen_modRp (f : RingPort → RingPort) (g : GenId) : (s.modRp f).gen g = s.gen g :=
  State.gen_of_gens rfl g

@[simp] theorem State.gen_modMu (f : Management → Management) (g : GenId) :
    (s.modMu f).gen g = s.gen g := State.gen_of_gens rfl g

@[simp] theorem State.gen_notice (b : List Byte) (g : GenId) : (s.notice b).gen g = s.gen g :=
  State.gen_of_gens (by simp) g

@[simp] theorem State.group_modHead (h : HeadId) (f : Head → Head) (g : GroupId) :
    (s.modHead h f).group g = s.group g := rfl

@[simp] theorem State.group_modGen (k : GenId) (f : Generator → Generator) (g : GroupId) :
    (s.modGen k f).group g = s.group g := State.group_of_interlocks (by simp) g

@[simp] theorem State.group_notice (b : List Byte) (g : GroupId) : (s.notice b).group g = s.group g :=
  State.group_of_interlocks (by simp) g

@[simp] theorem State.profile_modHead (h : HeadId) (f : Head → Head) (p : ProfileId) :
    (s.modHead h f).profile p = s.profile p := rfl

@[simp] theorem State.profile_modGen (g : GenId) (f : Generator → Generator) (p : ProfileId) :
    (s.modGen g f).profile p = s.profile p := State.profile_of_profiles (by simp) p

@[simp] theorem State.profile_notice (b : List Byte) (p : ProfileId) :
    (s.notice b).profile p = s.profile p := State.profile_of_profiles (by simp) p

@[simp] theorem State.profile_modRp (f : RingPort → RingPort) (p : ProfileId) :
    (s.modRp f).profile p = s.profile p := rfl

/-- A head context change is a head change. -/
theorem State.modCtx_eq (h : HeadId) (f : HeadContext → HeadContext) :
    s.modCtx h f = s.modHead h fun x => { x with ctx := f x.ctx } := rfl

/-- Two changes of one head are one. -/
@[simp] theorem State.modHead_modHead (h : HeadId) (f f' : Head → Head) :
    (s.modHead h f).modHead h f' = s.modHead h fun x => f' (f x) := by
  simp [State.modHead]

/-- Two changes of one generator are one. -/
@[simp] theorem State.modGen_modGen (g : GenId) (f f' : Generator → Generator) :
    (s.modGen g f).modGen g f' = s.modGen g fun x => f' (f x) := by cases g <;> rfl

/-- A change that leaves a head as it is leaves the part as it is. -/
theorem State.modHead_self (h : HeadId) : (s.modHead h fun x => x) = s := by
  simp [State.modHead]

/-- A generator's change is known by its value on that generator. -/
theorem State.modGen_congr (g : GenId) {f f' : Generator → Generator}
    (e : f (s.gen g) = f' (s.gen g)) : s.modGen g f = s.modGen g f' := by
  cases g <;> simp only [State.gen] at e <;> simp only [State.modGen, e]

/-- A change that leaves a generator as it is leaves the part as it is. -/
theorem State.modGen_self (g : GenId) {f : Generator → Generator} (e : f (s.gen g) = s.gen g) :
    s.modGen g f = s := by
  cases g <;> simp only [State.gen] at e <;> simp only [State.modGen, e]

/-- A head's change is known by its value on that head. -/
theorem State.modHead_congr (h : HeadId) {f f' : Head → Head}
    (e : f (s.head h) = f' (s.head h)) : s.modHead h f = s.modHead h f' := by
  simp only [State.head] at e
  simp only [State.modHead, e]

/-- A counted deviation is a head change. -/
theorem State.countDev_eq (h : HeadId) (d : Deviation) :
    s.countDev h d = s.modHead h fun x =>
      { x with deviations := x.deviations.set d.idx.val (count16 x.deviations[d.idx]) d.idx.isLt } :=
  rfl

/-- Every head is in the list of heads. -/
theorem mem_allHeads (h : HeadId) : h ∈ allHeads := by revert h; decide

end Sys2Proof.Machine
end

