-- ==== Sys2Proof/Laws/Joints.lean ====
section
/-! SUPPORT. What the end of a rescue, the end of a joint, a suspension, the taking of a fault and the exit of a
segment can do. -/

namespace Sys2Proof.Machine

variable (s : State)

/-! ### The end of a rescue -/

/-- Ending `g`'s rescue, where head `h` is in service, is what a generator's `afterEnd` says (R103). -/
theorem endRescue_gen_of_service {g : GenId} {h : HeadId} (e : (s.gen g).inService = some h) :
    (endRescue g s).gen g = (s.gen g).afterEnd h (s.mu.config.mode g) false false 0 := by
  simp [endRescue, e, Generator.afterEnd]

/-- The end of a rescue changes the generators only. -/
theorem endRescue_gen_only (g : GenId) :
    ∃ f, endRescue g s = s.modGen g f := by
  unfold endRescue
  split
  · exact ⟨fun x => x, by cases g <;> rfl⟩
  · exact ⟨_, rfl⟩

/-- The end of `g`'s rescue leaves the other generator. -/
theorem endRescue_gen_other {g k : GenId} (ne : k ≠ g) : (endRescue g s).gen k = s.gen k := by
  obtain ⟨f, e⟩ := endRescue_gen_only s g
  rw [e, State.gen_modGen_other _ _ ne]

/-- A generator another head is in service of keeps its service. -/
theorem Generator.afterEnd_of_ne {x : Generator} {h : HeadId} (e : x.inService ≠ some h)
    (m : RescueMode) : x.afterEnd h m false false 0 = x := by
  simp [Generator.afterEnd, e]

/-- `endRescueOf h` frees the head from every generator's place and does nothing else (R103). -/
theorem endRescueOf_spec (h : HeadId) :
    (∀ g, (endRescueOf h s).gen g = (s.gen g).afterEnd h (s.mu.config.mode g) false false 0)
      ∧ endRescueOf h s = { s with gens := (endRescueOf h s).gens } := by
  have key : ∀ (t : State) (g : GenId),
      (∀ k, (if (t.gen g).inService = some h then endRescue g t else t).gen k =
        if k = g then (t.gen g).afterEnd h (t.mu.config.mode g) false false 0 else t.gen k)
      ∧ ∃ gs, (if (t.gen g).inService = some h then endRescue g t else t) = { t with gens := gs } := by
    intro t g
    by_cases e : (t.gen g).inService = some h
    · refine ⟨fun k => ?_, ?_⟩
      · rw [if_pos e]
        by_cases ek : k = g
        · subst ek; rw [if_pos rfl]; exact endRescue_gen_of_service t e
        · rw [if_neg ek]; exact endRescue_gen_other t ek
      · rw [if_pos e]
        obtain ⟨f, ef⟩ := endRescue_gen_only t g
        rw [ef]; cases g <;> exact ⟨_, rfl⟩
    · refine ⟨fun k => ?_, ⟨t.gens, by rw [if_neg e]⟩⟩
      rw [if_neg e]
      by_cases ek : k = g
      · subst ek; rw [if_pos rfl, Generator.afterEnd_of_ne e]
      · rw [if_neg ek]
  obtain ⟨a1, gs, ea⟩ := key s .a
  obtain ⟨b1, gs', eb⟩ := key (if (s.gen .a).inService = some h then endRescue .a s else s) .b
  have eo : endRescueOf h s =
      if ((if (s.gen .a).inService = some h then endRescue .a s else s).gen .b).inService = some h
      then endRescue .b (if (s.gen .a).inService = some h then endRescue .a s else s)
      else (if (s.gen .a).inService = some h then endRescue .a s else s) := rfl
  have em : (if (s.gen .a).inService = some h then endRescue .a s else s).mu = s.mu := by rw [ea]
  refine ⟨fun g => ?_, ?_⟩
  · rw [eo, b1]
    cases g
    · rw [if_neg (by decide), a1, if_pos rfl]
    · rw [if_pos rfl, em, a1, if_neg (by decide)]
  · rw [eo, eb, ea]

/-- Withdrawing a head's request and ending its rescue (R105, R35 step 4). -/
theorem dropRescue_spec (h : HeadId) :
    (∀ g, (dropRescue h s).gen g = (s.gen g).afterEnd h (s.mu.config.mode g) false false 0)
      ∧ dropRescue h s =
        { s.modHead h (fun x => { x with rescueReq := false }) with gens := (dropRescue h s).gens } := by
  obtain ⟨a, b⟩ := endRescueOf_spec (withdraw h s) h
  exact ⟨a, b⟩

@[simp] theorem dropRescue_head_same (h : HeadId) :
    (dropRescue h s).head h = { s.head h with rescueReq := false } := by
  rw [(dropRescue_spec s h).2]
  exact State.head_modHead_same s h fun x => { x with rescueReq := false }

@[simp] theorem dropRescue_head_other {h k : HeadId} (ne : k ≠ h) :
    (dropRescue h s).head k = s.head k := by
  rw [(dropRescue_spec s h).2]
  exact State.head_modHead_other s (fun x => { x with rescueReq := false }) ne

@[simp] theorem dropRescue_frame (h : HeadId) :
    (dropRescue h s).rp = s.rp ∧ (dropRescue h s).mu = s.mu
      ∧ (dropRescue h s).profiles = s.profiles ∧ (dropRescue h s).slots = s.slots
      ∧ (dropRescue h s).interlocks = s.interlocks ∧ (dropRescue h s).results = s.results
      ∧ (dropRescue h s).timebase = s.timebase ∧ (dropRescue h s).rstHeld = s.rstHeld
      ∧ (dropRescue h s).engEn = s.engEn ∧ (dropRescue h s).pending = s.pending := by
  rw [(dropRescue_spec s h).2]
  simp

/-- After its rescue is dropped a head is in no generator's place. -/
theorem dropRescue_not_inRescue (h : HeadId) : (dropRescue h s).inRescue h = false := by
  have e := (dropRescue_spec s h).1
  have out : ∀ g, ((dropRescue h s).gen g).inService ≠ some h := by
    intro g; rw [e g]; unfold Generator.afterEnd
    by_cases q : (s.gen g).inService = some h <;> simp [q]
  have a := out .a
  have b := out .b
  simp only [State.gen] at a b
  simp [State.inRescue, a, b]

/-! ### The idle timer -/

/-- The idle timer's start changes one generator's idle timer, where it is READY and unheld (R116). -/
theorem startIdleIfUnheld_spec (g : GenId) :
    startIdleIfUnheld g s = s.modGen g fun x =>
      if x.state == .ready && !s.genHeld g then
        { x with idleTimer := some s.mu.config.idleDelay } else x := by
  unfold startIdleIfUnheld
  by_cases c : (s.gen g).state = .ready ∧ s.genHeld g = false
  · rw [if_pos c]
    exact State.modGen_congr s g (by simp [c])
  · rw [if_neg c]
    refine (State.modGen_self s g ?_).symm
    rw [if_neg]
    simpa using c

/-! ### Suspension -/

/-- A suspension captures the record, stops the timers, starts the window, zeroes the demand and drops the
rescue (R39, R40). -/
theorem suspend_head_same (cause : SuspendCause) (h : HeadId) :
    (suspend cause h s).head h =
      { s.head h with
          ctx := { (s.head h).ctx with
            suspendRec := some (s.suspendRecord h cause), state := .suspended, segTimer := none,
            sampleTimer := none, windowTimer := some s.mu.config.resumeWindow },
          hcu := { (s.head h).hcu with demand := 0 }, rescueReq := false } := by
  simp [suspend]

@[simp] theorem suspend_head_other (cause : SuspendCause) {h k : HeadId} (ne : k ≠ h) :
    (suspend cause h s).head k = s.head k := by
  simp [suspend, ne]

theorem suspend_frame (cause : SuspendCause) (h : HeadId) :
    (∀ g, (suspend cause h s).gen g = (s.gen g).afterEnd h (s.mu.config.mode g) false false 0)
      ∧ (suspend cause h s).rp = s.rp ∧ (suspend cause h s).mu = s.mu
      ∧ (suspend cause h s).profiles = s.profiles ∧ (suspend cause h s).slots = s.slots
      ∧ (suspend cause h s).interlocks = s.interlocks ∧ (suspend cause h s).results = s.results
      ∧ (suspend cause h s).timebase = s.timebase ∧ (suspend cause h s).rstHeld = s.rstHeld
      ∧ (suspend cause h s).engEn = s.engEn ∧ (suspend cause h s).pending = s.pending := by
  refine ⟨fun g => ?_, ?_⟩
  · unfold suspend
    rw [(dropRescue_spec _ h).1 g]
    simp
  · simp [suspend]

/-! ### The end of a joint -/

/-- The release of a generator changes the generators only: the idle timer of the bound one where it is
READY and unheld (R116). -/
theorem releaseGenerator_spec (h : HeadId) :
    releaseGenerator h s = { s with gens := (releaseGenerator h s).gens }
      ∧ ∀ g, (releaseGenerator h s).gen g =
        if ((s.head h).cfg.binding == some g) && (s.gen g).state == .ready && !s.genHeld g then
          { s.gen g with idleTimer := some s.mu.config.idleDelay } else s.gen g := by
  unfold releaseGenerator
  split
  · rename_i e
    exact ⟨rfl, fun g => by simp [e]⟩
  · rename_i k e
    rw [startIdleIfUnheld_spec]
    refine ⟨by cases k <;> rfl, fun g => ?_⟩
    by_cases ek : g = k
    · subst ek; simp [e]
    · have : (some k == some g) = false := by simp; exact fun q => ek q.symm
      rw [State.gen_modGen_other _ _ ek, e, this]; simp

/-- A head after its joint has ended with outcome `o` (R35 steps 3 to 6). -/
def Head.afterJoint (x : Head) (o : JointOutcome) : Head :=
  { x with
      ctx := { x.ctx with
        reservation := false, segTimer := none, sampleTimer := none, windowTimer := none,
        suspendRec := none, lastOutcome := o, state := if o = .fault then .faulted else .idle },
      hcu := { x.hcu with demand := 0 }, rescueReq := false }

/-- A joint's end up to its notice: the head, the results and the places of rescue change. -/
theorem finishJoint_eq (o : JointOutcome) (f : Option (List Criterion)) (k : Option FaultKind)
    (h : HeadId) :
    finishJoint o f k h s =
      releaseGenerator h
        (State.noticeJointEnd
          ({ s.modHead h (fun x => x.afterJoint o) with
              results := s.results ++ [s.resultRecord h o f k],
              gens := (endRescueOf h s).gens } : State) h o k) := by
  have e : (dropRescue h ({ s with results := s.results ++ [s.resultRecord h o f k] }.modCtx h
      fun c => { c with reservation := false })).gens = (endRescueOf h s).gens := by
    have g := fun g => (dropRescue_spec ({ s with results := s.results ++ [s.resultRecord h o f k] }.modCtx h
      fun c => { c with reservation := false }) h).1 g
    have g' := fun g => (endRescueOf_spec s h).1 g
    have a := (g .a).trans (g' .a).symm
    have b := (g .b).trans (g' .b).symm
    simp only [State.gen] at a b
    cases hx : (dropRescue h ({ s with results := s.results ++ [s.resultRecord h o f k] }.modCtx h
      fun c => { c with reservation := false })).gens
    cases hy : (endRescueOf h s).gens
    simp_all
  simp only [finishJoint]
  rw [(dropRescue_spec _ h).2, e]
  simp [State.modHead, State.modCtx, Head.afterJoint]

@[simp] theorem State.head_withGens (gs : Generators) (h : HeadId) :
    ({ s with gens := gs } : State).head h = s.head h := rfl

@[simp] theorem State.head_withResults (l : List ResultRecord) (h : HeadId) :
    ({ s with results := l } : State).head h = s.head h := rfl

/-- The head after its joint has ended (R35 steps 3 to 6). -/
theorem finishJoint_head_same (o : JointOutcome) (f : Option (List Criterion))
    (k : Option FaultKind) (h : HeadId) :
    (finishJoint o f k h s).head h = (s.head h).afterJoint o := by
  rw [finishJoint_eq, (releaseGenerator_spec _ h).1]
  simp only [State.noticeJointEnd, State.head_withGens, State.head_notice]
  exact State.head_modHead_same s h (fun x => x.afterJoint o)

/-- The other heads after a joint has ended. -/
@[simp] theorem finishJoint_head_other (o : JointOutcome) (f : Option (List Criterion))
    (k : Option FaultKind) {h j : HeadId} (ne : j ≠ h) :
    (finishJoint o f k h s).head j = s.head j := by
  rw [finishJoint_eq, (releaseGenerator_spec _ h).1]
  simp only [State.noticeJointEnd, State.head_withGens, State.head_notice]
  exact State.head_modHead_other s (fun x => x.afterJoint o) ne

/-- What else stays and the record appended at a joint's end (R35 steps 2 and 3). -/
theorem finishJoint_frame (o : JointOutcome) (f : Option (List Criterion)) (k : Option FaultKind)
    (h : HeadId) :
    (finishJoint o f k h s).results = s.results ++ [s.resultRecord h o f k]
      ∧ (finishJoint o f k h s).timebase = s.timebase
      ∧ (finishJoint o f k h s).rstHeld = s.rstHeld ∧ (finishJoint o f k h s).engEn = s.engEn
      ∧ (finishJoint o f k h s).mu = s.mu ∧ (finishJoint o f k h s).profiles = s.profiles
      ∧ (finishJoint o f k h s).slots = s.slots
      ∧ (finishJoint o f k h s).interlocks = s.interlocks
      ∧ (finishJoint o f k h s).pending = s.pending := by
  rw [finishJoint_eq, (releaseGenerator_spec _ h).1]
  simp [State.noticeJointEnd]

/-- A suspended-by-fault mark and a suspension, an end of the joint, or nothing but the record: what the
action of a fault does (R144 step 5). -/
theorem applyAction_cases (h : HeadId) (k : FaultKind) (act : FaultAction) :
    ((act = .abort ∨ act = .escalated) ∧ applyAction h k act s = finishJoint .fault none (some k) h s)
      ∨ (act = .suspend ∧ applyAction h k act s =
          suspend (.fault k) h (s.modCtx h fun c => { c with suspendedOnce := true }))
      ∨ (act = .recorded ∧ applyAction h k act s = s) := by
  cases act <;> simp [applyAction]

/-- The taking of a fault, said once (R144): the kind is recorded; where the head holds a joint, an unmasked
kind is captured if it is the first and noticed, and the action follows. -/
theorem takeFault_eq (h : HeadId) (k : FaultKind) :
    takeFault h k s =
      if s.holds h then
        let act := s.faultAction h k
        let r := recordKind h k s
        let c := if !s.masked k && (s.head h).fr.pointer.isNone then takeCapture h k act r else r
        applyAction h k act
          (if s.masked k then c
           else c.noticeHeadFault h k act (!s.masked k && (s.head h).fr.pointer.isNone)
             (act.after (s.head h).ctx.state))
      else recordKind h k s := by
  have e1 : (recordKind h k s).holds h = s.holds h := by
    simp [State.holds, recordKind]
  have e2 : (recordKind h k s).faultAction h k = s.faultAction h k := by
    simp [State.faultAction, recordKind, State.severity]
  have e3 : (recordKind h k s).masked k = s.masked k := rfl
  have e4 : ((recordKind h k s).head h).fr.pointer = (s.head h).fr.pointer := by simp [recordKind]
  have e5 : ((recordKind h k s).head h).ctx.state = (s.head h).ctx.state := by simp [recordKind]
  simp only [takeFault, e1, e2, e3, e4, e5]

/-- A fault touches no other head (R144). -/
@[simp] theorem takeFault_head_other (k : FaultKind) {h j : HeadId} (ne : j ≠ h) :
    (takeFault h k s).head j = s.head j := by
  have cap : ∀ (t : State) (act : FaultAction), (takeCapture h k act t).head j = t.head j :=
    fun t act => State.head_modHead_other t _ ne
  have rec_ : (recordKind h k s).head j = s.head j := State.head_modHead_other s _ ne
  have act : ∀ (t : State) (a : FaultAction), (applyAction h k a t).head j = t.head j := by
    intro t a
    rcases applyAction_cases t h k a with ⟨_, e⟩ | ⟨_, e⟩ | ⟨_, e⟩ <;> rw [e]
    · exact finishJoint_head_other t _ _ _ ne
    · rw [suspend_head_other _ _ ne]; exact State.head_modHead_other t _ ne
  rw [takeFault_eq]
  split
  · simp only [act]
    split <;> split <;> simp [State.noticeHeadFault, cap, rec_]
  · exact rec_

/-! ### Entry into a segment -/

/-- The entry into a segment that is not powered, and the entry test of one that is (R29, R65, R135). -/
theorem enterSegment_eq {h : HeadId} {seg : Segment} (e : s.segment h = some seg) :
    enterSegment h s =
      let s1 := s.modHead h fun x => x.enter seg s.timebase s.threeSlots
      let s2 := if seg.isSoak then s1 else dropRescue h s1
      if seg.heats then entryTest h s2 else s2 := by
  simp only [enterSegment, e]

/-- A head whose interlocks are satisfied and whose latch is clear passes the entry test (R135). -/
theorem entryTest_passes {h : HeadId} (v : s.verdict h = true) (l : s.latched h = false) :
    entryTest h s = s := by
  simp [entryTest, v, l]

/-- The entry into a segment, as the statements say it (R29, R65); they count the withdrawal of the rescue request
with it, which `enterSegment` makes after it. -/
theorem enter_eq_entered (x : Head) (seg : Segment) (now : Word32) (three : Nat) :
    x.enter seg now three = { x.entered seg now three with rescueReq := x.rescueReq } := by
  cases seg <;> rfl

/-- An entry into a segment other than a SOAK withdraws the rescue request, one into a SOAK leaves it (R105). -/
theorem entered_rescueReq (x : Head) (seg : Segment) (now : Word32) (three : Nat) :
    (x.entered seg now three).rescueReq = (seg.isSoak && x.rescueReq) := by
  cases seg <;> simp [Head.entered, Segment.isSoak]

/-! ### A head leaving its segment -/

/-- Once a head has left a generator's place, its leaving changes nothing there. -/
theorem Generator.afterEnd_afterEnd (x : Generator) (h : HeadId) (m : RescueMode) :
    (x.afterEnd h m false false 0).afterEnd h m false false 0 = x.afterEnd h m false false 0 := by
  refine Generator.afterEnd_of_ne ?_ m
  unfold Generator.afterEnd
  by_cases q : x.inService = some h <;> simp [q]

/-- The end of a head's rescue, as the statements say it (R105). -/
theorem dropRescue_eq_leaving (h : HeadId) :
    dropRescue h s = s.leaving h { s.head h with rescueReq := false } := by
  obtain ⟨g, e⟩ := dropRescue_spec s h
  have gs : (dropRescue h s).gens =
      { a := s.gens.a.afterEnd h s.mu.config.modeA false false 0,
        b := s.gens.b.afterEnd h s.mu.config.modeB false false 0 } :=
    congrArg₂ Generators.mk (g .a) (g .b)
  rw [e, gs]; rfl

@[simp] theorem State.leaving_head_same (h : HeadId) (x : Head) : (s.leaving h x).head h = x :=
  State.head_modHead_same s h fun _ => x

@[simp] theorem State.leaving_head_other {h j : HeadId} (x : Head) (n : j ≠ h) :
    (s.leaving h x).head j = s.head j := State.head_modHead_other s (fun _ => x) n

@[simp] theorem State.leaving_gen (h : HeadId) (x : Head) (g : GenId) :
    (s.leaving h x).gen g = (s.gen g).afterEnd h (s.mu.config.mode g) false false 0 := by
  cases g <;> rfl

@[simp] theorem State.leaving_modHead (h : HeadId) (x : Head) (f : Head → Head) :
    (s.leaving h x).modHead h f = s.leaving h (f x) := by
  simp [State.leaving, State.modHead]

@[simp] theorem State.modHead_leaving (h : HeadId) (x : Head) (f : Head → Head) :
    (s.modHead h f).leaving h x = s.leaving h x := by
  simp [State.leaving, State.modHead]

@[simp] theorem State.leaving_leaving (h : HeadId) (x y : Head) :
    (s.leaving h x).leaving h y = s.leaving h y := by
  simp only [State.leaving, State.modHead_mu, Generator.afterEnd_afterEnd]
  simp [State.modHead]

@[simp] theorem dropRescue_leaving (h : HeadId) (x : Head) :
    dropRescue h (s.leaving h x) = s.leaving h { x with rescueReq := false } := by
  rw [dropRescue_eq_leaving, State.leaving_head_same, State.leaving_leaving]

/-- The entry of head `h` into the segment its index names: it stands entered, its rescue over unless that is a SOAK,
and has taken the entry test where that heats (R29, R65, R105, R135). -/
theorem enterSegment_entered {h : HeadId} {seg : Segment} (e : s.segment h = some seg) :
    enterSegment h s =
      let x := (s.head h).entered seg s.timebase (3 * s.slots.period)
      let v := if seg.isSoak then s.modHead h fun _ => x else s.leaving h x
      if seg.heats then entryTest h v else v := by
  have key : (if seg.isSoak then s.modHead h fun x => x.enter seg s.timebase s.threeSlots
      else dropRescue h (s.modHead h fun x => x.enter seg s.timebase s.threeSlots)) =
      if seg.isSoak then
        s.modHead h fun _ => (s.head h).entered seg s.timebase (3 * s.slots.period)
      else s.leaving h ((s.head h).entered seg s.timebase (3 * s.slots.period)) := by
    have q := entered_rescueReq (s.head h) seg s.timebase (3 * s.slots.period)
    have w : ∀ {x : Head} {b : Bool}, x.rescueReq = b → { x with rescueReq := b } = x := by
      rintro x b rfl; rfl
    split
    · next k =>
      rw [k, Bool.true_and] at q
      exact congrArg (fun y => s.modHead h fun _ => y) ((enter_eq_entered ..).trans (w q))
    · next k =>
      rw [Bool.not_eq_true] at k
      rw [k, Bool.false_and] at q
      rw [dropRescue_eq_leaving, State.modHead_leaving, State.head_modHead_same, enter_eq_entered]
      exact congrArg (s.leaving h) (w q)
  rw [enterSegment_eq s e]
  exact congrArg (fun v => if seg.heats then entryTest h v else v) key

/-- The exit of a segment that is not the last: the head stands fresh in the next one, its rescue over, and has
taken the entry test where that heats (R29, R30, R65, R105, R135). -/
theorem exitSegment_next {h : HeadId} {rc : Recipe} {seg : Segment} (e : s.recipe h = some rc)
    (n : rc.segments[(s.head h).ctx.segIndex + 1]? = some seg)
    (off : (s.head h).ctx.entryOffset = 0) (cont : (s.head h).ctx.contEntry = false) :
    exitSegment h s =
      if seg.heats then
        entryTest h (s.leaving h ((s.head h).inNext seg s.timebase (3 * s.slots.period)))
      else s.leaving h ((s.head h).inNext seg s.timebase (3 * s.slots.period)) := by
  have lt : (s.head h).ctx.segIndex + 1 < rc.segments.length := (List.getElem?_eq_some_iff.1 n).1
  let x : Head :=
    { s.head h with
        ctx := { (s.head h).ctx with
          segTimer := none, segsDone := (s.head h).ctx.segsDone + 1,
          segIndex := (s.head h).ctx.segIndex + 1 },
        rescueReq := false }
  have ex : exitSegment h s = enterSegment h (s.leaving h x) := by
    simp only [exitSegment, e, if_pos lt, State.modCtx, dropRescue_eq_leaving,
      State.modHead_leaving, State.leaving_modHead, State.head_modHead_same]
    rfl
  have sg : (s.leaving h x).segment h = some seg := by
    have r : (s.leaving h x).recipe h = s.recipe h := by
      simp only [State.recipe, State.leaving_head_same]; rfl
    simp only [State.segment, r, e, State.leaving_head_same]
    exact n
  have fin : x.entered seg s.timebase (3 * s.slots.period) =
      (s.head h).inNext seg s.timebase (3 * s.slots.period) := by
    cases seg <;> simp [x, Head.inNext, Head.entered, off, cont]
  rw [ex, enterSegment_entered _ sg]
  simp only [State.leaving_modHead, State.leaving_leaving, State.leaving_head_same, ite_self]
  rw [← fin]; rfl

/-! ### Acceptance criteria -/

/-- A criterion fails as the statements say it (R165). -/
theorem failedCriteria_iff (rc : Recipe) (c : HeadContext) (k : Criterion) :
    k ∈ failedCriteria rc.criteria c ↔ rc.FailedBy c k := by
  have all : k ∈ Criterion.all := by cases k <;> decide
  simp only [failedCriteria, List.mem_filter, all, true_and]
  cases k <;> simp only [Criterion.fails, Recipe.FailedBy, belowMin, aboveMax, Bool.and_eq_true,
    Bool.or_eq_true] <;> split <;> simp only [*, reduceCtorEq, false_and, exists_false,
    Bool.false_eq_true, Option.some.injEq, exists_eq_left'] <;> exact decide_eq_true_iff

end Sys2Proof.Machine
end

