-- ==== Sys2Proof/Laws/Events.lean ====
section
/-! SUPPORT. What the events of heads, generators and interlocks leave as it is, and what a report and the
debounce of an input can do. -/

namespace Sys2Proof.Machine

/-- What no event of a head, a generator or an interlock touches: the Management Unit, the profiles, the
slot clock, the timebase, the pins and the waiting commands. -/
def State.fixedPart (s : State) :
    Management × Vector ProfileRecord 32 × SlotClock × Word32 × Bool × Bool × List Instr :=
  (s.mu, s.profiles, s.slots, s.timebase, s.rstHeld, s.engEn, s.pending)

variable (s : State)

/-! ### Updates -/

@[simp] theorem fixedPart_modHead (h : HeadId) (f : Head → Head) :
    (s.modHead h f).fixedPart = s.fixedPart := rfl

@[simp] theorem fixedPart_modCtx (h : HeadId) (f : HeadContext → HeadContext) :
    (s.modCtx h f).fixedPart = s.fixedPart := rfl

@[simp] theorem fixedPart_modHcu (h : HeadId) (f : Hcu → Hcu) :
    (s.modHcu h f).fixedPart = s.fixedPart := rfl

@[simp] theorem fixedPart_countDev (h : HeadId) (d : Deviation) :
    (s.countDev h d).fixedPart = s.fixedPart := rfl

@[simp] theorem fixedPart_countPort (c : PortCounter) :
    (s.countPort c).fixedPart = s.fixedPart := rfl

@[simp] theorem fixedPart_modGen (g : GenId) (f : Generator → Generator) :
    (s.modGen g f).fixedPart = s.fixedPart := by cases g <;> rfl

@[simp] theorem fixedPart_modGroup (g : GroupId) (f : Group → Group) :
    (s.modGroup g f).fixedPart = s.fixedPart := rfl

@[simp] theorem fixedPart_notice (p : List Byte) : (s.notice p).fixedPart = s.fixedPart := by
  unfold State.notice; split <;> rfl

@[simp] theorem fixedPart_noticeGenState (g : GenId) (left : GenState) :
    (s.noticeGenState g left).fixedPart = s.fixedPart := fixedPart_notice s _

@[simp] theorem fixedPart_noticeCoolantLatch (g : GroupId) :
    (s.noticeCoolantLatch g).fixedPart = s.fixedPart := fixedPart_notice s _

@[simp] theorem fixedPart_noticeHeadFault (h : HeadId) (k : FaultKind) (a : FaultAction) (c : Bool)
    (st : HeadState) : (s.noticeHeadFault h k a c st).fixedPart = s.fixedPart := fixedPart_notice s _

/-- A fold of events that each keep the fixed part keeps it. -/
theorem fixedPart_foldl {α : Type} {f : State → α → State}
    (hf : ∀ s a, (f s a).fixedPart = s.fixedPart) (l : List α) :
    (l.foldl f s).fixedPart = s.fixedPart := by
  induction l generalizing s with
  | nil => rfl
  | cons a l ih => rw [List.foldl_cons, ih, hf]

/-! ### Heads -/

@[simp] theorem fixedPart_dropRescue (h : HeadId) : (dropRescue h s).fixedPart = s.fixedPart := by
  simp [State.fixedPart]

@[simp] theorem fixedPart_endRescue (g : GenId) : (endRescue g s).fixedPart = s.fixedPart := by
  unfold endRescue; split <;> simp

@[simp] theorem fixedPart_startIdleIfUnheld (g : GenId) :
    (startIdleIfUnheld g s).fixedPart = s.fixedPart := by rw [startIdleIfUnheld_spec]; simp

@[simp] theorem fixedPart_suspend (c : SuspendCause) (h : HeadId) :
    (suspend c h s).fixedPart = s.fixedPart := by
  simp [State.fixedPart, suspend_frame]

@[simp] theorem fixedPart_finishJoint (o : JointOutcome) (f : Option (List Criterion))
    (k : Option FaultKind) (h : HeadId) : (finishJoint o f k h s).fixedPart = s.fixedPart := by
  simp [State.fixedPart, finishJoint_frame]

/-- The taking of a fault (R144). -/
@[simp] theorem fixedPart_takeFault (h : HeadId) (k : FaultKind) :
    (takeFault h k s).fixedPart = s.fixedPart := by
  have act : ∀ (t : State) (a : FaultAction), (applyAction h k a t).fixedPart = t.fixedPart := by
    intro t a
    rcases applyAction_cases t h k a with ⟨_, e⟩ | ⟨_, e⟩ | ⟨_, e⟩ <;> rw [e] <;> simp
  rw [takeFault_eq]
  split
  · simp only [act]
    split <;> split <;> simp [takeCapture, recordKind]
  · simp [recordKind]

/-- Entry into a segment (R29, R65, R135). -/
@[simp] theorem fixedPart_enterSegment (h : HeadId) :
    (enterSegment h s).fixedPart = s.fixedPart := by
  cases e : s.segment h with
  | none => simp [enterSegment, e]
  | some seg =>
    have test : ∀ t : State, (entryTest h t).fixedPart = t.fixedPart := by
      intro t; unfold entryTest; split
      · simp
      · split <;> simp
    rw [enterSegment_eq s e]
    cases seg <;> simp [Segment.heats, Segment.isSoak, test]

/-- A joint's normal end (R30, R164). -/
@[simp] theorem fixedPart_finishNormally (h : HeadId) :
    (finishNormally h s).fixedPart = s.fixedPart := by
  have ends : ∀ l : List Criterion,
      (if l = [] then finishJoint .accept none none h s
       else finishJoint .reject (some l) none h s).fixedPart = s.fixedPart := by
    intro l; split <;> simp
  exact ends _

/-- Exit from a segment (R30). -/
@[simp] theorem fixedPart_exitSegment (h : HeadId) : (exitSegment h s).fixedPart = s.fixedPart := by
  have goes : ∀ (n : Nat) (u v : State), u.fixedPart = s.fixedPart → v.fixedPart = s.fixedPart →
      (if (s.head h).ctx.segIndex + 1 < n then u else v).fixedPart = s.fixedPart := by
    intro n u v hu hv; split <;> assumption
  exact goes _ _ _ (by simp) (by simp)

/-- Entry into a joint (R27). -/
@[simp] theorem fixedPart_enterJoint (h : HeadId) : (enterJoint h s).fixedPart = s.fixedPart := by
  unfold enterJoint wakeGenerator
  dsimp only
  split
  · simp
  · split <;> simp

/-! ### Generators -/

/-- A generator's entry into FAULTED (R122). -/
@[simp] theorem fixedPart_faultGenerator (g : GenId) (c : GenCause) :
    (faultGenerator g c s).fixedPart = s.fixedPart := by
  unfold faultGenerator
  rw [fixedPart_foldl]
  · simp
  · intro t h; unfold faultHeadOf; dsimp only; split <;> simp

/-- A generator's entry into READY (R113). -/
@[simp] theorem fixedPart_readyGenerator (g : GenId) :
    (readyGenerator g s).fixedPart = s.fixedPart := by
  unfold readyGenerator
  simp only [fixedPart_noticeGenState, fixedPart_startIdleIfUnheld]
  rw [fixedPart_foldl]
  · simp
  · intro t h; unfold releaseWaiting; dsimp only; split <;> simp

/-- The recording of a report, as the statements say it (R117, R119). -/
theorem recordReport_eq (m : Genstat) {v : Nat} (e : m.bus = min v 1000) :
    recordReport m s = s.reportRecorded m.gen m.reported v := by
  simp only [recordReport, State.reportRecorded, PartConfig.budgetAt, e]; rfl

/-- What a reported state does to a generator, said once (R118, R122). -/
theorem applyReport_cases (g : GenId) (r : Reported) :
    ((s.gen g).state ≠ .off ∧ (s.gen g).state ≠ .faulted ∧ r = .fault
        ∧ applyReport g r s = faultGenerator g .reportedFault s)
      ∨ ((s.gen g).state = .waking ∧ r = .ready ∧ applyReport g r s = readyGenerator g s)
      ∨ ((s.gen g).state = .ready ∧ (r = .standby ∨ r = .waking)
        ∧ applyReport g r s = faultGenerator g .unexpectedState s)
      ∨ applyReport g r s = s := by
  unfold applyReport
  cases (s.gen g).state <;> cases r <;> simp

/-- What crediting a report can do, said once (R121): nothing, a count, or energy for the joint of the
matching history entry. -/
theorem creditEnergy_cases (m : Genstat) :
    creditEnergy m s = s
      ∨ (∃ h d, m.head = some h ∧ (d = .energyMismatch ∨ d = .lateEnergy)
        ∧ creditEnergy m s = s.countDev h d)
      ∨ ∃ h e, m.head = some h ∧ historyEntry (s.gen m.gen).history m.slot h = some e
        ∧ s.holds h = true ∧ (s.head h).ctx.serial = e.serial
        ∧ creditEnergy m s = s.modCtx h fun c =>
            { c with energy := add32 c.energy (m.delivered * s.slots.period) } := by
  unfold creditEnergy
  cases m.head with
  | none => exact .inl rfl
  | some h =>
    by_cases z : m.delivered = 0
    · simp [z]
    · simp only [z, if_false]
      cases q : historyEntry (s.gen m.gen).history m.slot h with
      | none => exact .inr (.inl ⟨h, _, rfl, .inl rfl, rfl⟩)
      | some e =>
        by_cases j : s.holds h ∧ (s.head h).ctx.serial = e.serial
        · exact .inr (.inr ⟨h, e, rfl, q, j.1, j.2, by simp [j]⟩)
        · exact .inr (.inl ⟨h, _, rfl, .inr rfl, by simp [j]⟩)

/-- A GENSTAT (R117). -/
@[simp] theorem fixedPart_takeGenstat (p : List Byte) :
    (takeGenstat p s).fixedPart = s.fixedPart := by
  have apply_ : ∀ (t : State) g r, (applyReport g r t).fixedPart = t.fixedPart := by
    intro t g r
    rcases applyReport_cases t g r with ⟨-, -, -, e⟩ | ⟨-, -, e⟩ | ⟨-, -, e⟩ | e <;> rw [e] <;> simp
  have credit : ∀ (t : State) m, (creditEnergy m t).fixedPart = t.fixedPart := by
    intro t m
    rcases creditEnergy_cases t m with e | ⟨h, d, -, -, e⟩ | ⟨h, d, -, -, -, -, e⟩ <;> rw [e] <;> simp
  unfold takeGenstat
  split
  · simp
  · split <;> simp [apply_, credit, recordReport]

/-! ### Interlocks -/

/-- The debounce table (R128): SATISFIED stays so on a satisfied frame, an UNSATISFIED input needs two of
them in succession, and one that does not satisfy makes it UNSATISFIED with its mark clear. -/
theorem judge_cases (i : Input) (ok : Bool) :
    (ok = false ∧ i.judge ok = { i with satisfied := false, mark := false })
      ∨ (ok = true ∧ (i.satisfied = true ∨ i.mark = true)
        ∧ i.judge ok = { i with satisfied := true, mark := false })
      ∨ (ok = true ∧ i.satisfied = false ∧ i.mark = false
        ∧ i.judge ok = { i with satisfied := false, mark := true }) := by
  obtain ⟨r, a, b⟩ := i
  cases ok <;> cases a <;> cases b <;> simp [Input.judge]

/-- A coolant loss (R133, R134). -/
@[simp] theorem fixedPart_coolantLoss (g : GroupId) :
    (coolantLoss g s).fixedPart = s.fixedPart := by
  unfold coolantLoss
  dsimp only
  rw [fixedPart_foldl]
  · split <;> simp
  · intro t h
    unfold coolantLossHead releaseEarly
    split
    · split <;> simp
    all_goals simp

/-- An interlock loss (R132). -/
@[simp] theorem fixedPart_interlockLoss (b : Bool) (h : HeadId) :
    (interlockLoss b h s).fixedPart = s.fixedPart := by
  unfold interlockLoss releaseEarly
  split
  · split
    · split <;> simp
    · simp
  all_goals simp

/-- The losses of one event (R127, R129). -/
@[simp] theorem fixedPart_actOnLosses (s0 : State) (lost : GroupId → Bool) :
    (actOnLosses s0 lost s).fixedPart = s.fixedPart := by
  unfold actOnLosses
  dsimp only
  rw [fixedPart_foldl, fixedPart_foldl]
  · intro t g; split <;> simp
  · intro t h; split <;> simp

end Sys2Proof.Machine
end

