-- ==== Sys2Proof/Laws/Turns.lean ====
section
/-! SUPPORT. The turns that several heads have in one event: what each leaves of the heads, the generators and the
part, and what all of them leave together. -/

namespace Sys2Proof.Machine

variable {s t u : State}

/-! ### Turns -/

/-- What a turn of some heads leaves: the other heads, the profiles and the results made before. -/
structure Follows (P : HeadId → Prop) (s t : State) : Prop where
  heads : ∀ j, ¬ P j → t.head j = s.head j
  profiles : t.profiles = s.profiles
  results : s.results <+: t.results

theorem Follows.refl (P : HeadId → Prop) (s : State) : Follows P s s :=
  ⟨fun _ _ => rfl, rfl, List.prefix_rfl⟩

theorem Follows.trans {P : HeadId → Prop} (a : Follows P s t) (b : Follows P t u) : Follows P s u :=
  ⟨fun j n => (b.heads j n).trans (a.heads j n), b.profiles.trans a.profiles,
    a.results.trans b.results⟩

theorem Follows.mono {P Q : HeadId → Prop} (a : Follows P s t) (i : ∀ j, P j → Q j) :
    Follows Q s t :=
  ⟨fun j n => a.heads j fun p => n (i j p), a.profiles, a.results⟩

/-- The first turn of a list, and the others after it. -/
theorem Turns.cons_iff {α : Type} {turn : α → State → State → Prop} {k : α} {l : List α} :
    Turns turn (k :: l) s t ↔ ∃ m, turn k s m ∧ Turns turn l m t := Iff.rfl

/-- Turns that each follow their own heads follow all of them together. -/
theorem Turns.follows {α : Type} {owner : HeadId → α} {turn : α → State → State → Prop}
    (each : ∀ k a b, turn k a b → Follows (fun j => owner j = k) a b) {l : List α}
    (e : Turns turn l s t) : Follows (fun j => owner j ∈ l) s t := by
  induction l generalizing s with
  | nil => rw [show t = s from e]; exact .refl _ _
  | cons k l ih =>
    obtain ⟨m, a, b⟩ := Turns.cons_iff.1 e
    exact ((each k s m a).mono fun _ q => List.mem_cons.2 (.inl q)).trans
      ((ih b).mono fun _ => List.mem_cons_of_mem _)

/-- The turn of head `h`'s owner within the turns of a list without repeats: the head comes to it as it stood
before them, and leaves them as it left it. What every turn keeps holds when it comes. -/
theorem Turns.at_keeping {α : Type} {owner : HeadId → α} {turn : α → State → State → Prop}
    {P : State → Prop} (each : ∀ k a b, turn k a b → Follows (fun j => owner j = k) a b)
    (keep : ∀ k a b, P a → turn k a b → P b) {h : HeadId} {l : List α}
    (nd : l.Nodup) (mem : owner h ∈ l) (ps : P s) (e : Turns turn l s t) :
    ∃ a b, a.head h = s.head h ∧ a.profiles = s.profiles ∧ P a ∧ turn (owner h) a b
      ∧ t.head h = b.head h ∧ b.results <+: t.results := by
  induction l generalizing s with
  | nil => cases mem
  | cons k l ih =>
    obtain ⟨m, a, b⟩ := Turns.cons_iff.1 e
    obtain ⟨nk, nl⟩ := List.nodup_cons.1 nd
    rcases List.mem_cons.1 mem with q | q
    · subst q
      have f := Turns.follows each b
      exact ⟨s, m, rfl, rfl, ps, a, f.heads h nk, f.results⟩
    · have g := each k s m a
      obtain ⟨x, y, hx, px, pp, tx, ty, r⟩ := ih nl q (keep k s m ps a) b
      exact ⟨x, y, hx.trans (g.heads h fun e => nk (e ▸ q)), px.trans g.profiles, pp, tx, ty, r⟩

/-- The turn of head `h`'s owner, with nothing else kept. -/
theorem Turns.at {α : Type} {owner : HeadId → α} {turn : α → State → State → Prop}
    (each : ∀ k a b, turn k a b → Follows (fun j => owner j = k) a b) {h : HeadId} {l : List α}
    (nd : l.Nodup) (mem : owner h ∈ l) (e : Turns turn l s t) :
    ∃ a b, a.head h = s.head h ∧ a.profiles = s.profiles ∧ turn (owner h) a b
      ∧ t.head h = b.head h ∧ b.results <+: t.results := by
  obtain ⟨a, b, x, y, -, z⟩ :=
    Turns.at_keeping (P := fun _ => True) each (fun _ _ _ _ _ => trivial) nd mem trivial e
  exact ⟨a, b, x, y, z⟩

/-- A fact that each turn keeps, where its head comes to it as it stood before the turns, holds after them. -/
theorem Turns.keeps {turn : HeadId → State → State → Prop} {P : State → Prop}
    (each : ∀ k a b, turn k a b → Follows (fun j => j = k) a b)
    (step : ∀ h a b, a.head h = s.head h → a.profiles = s.profiles → P a → turn h a b → P b)
    {l : List HeadId} (nd : l.Nodup) (hs : P s) (e : Turns turn l s t) : P t := by
  suffices go : ∀ a, (∀ h ∈ l, a.head h = s.head h) → a.profiles = s.profiles → P a →
      Turns turn l a t → P t from go s (fun _ _ => rfl) rfl hs e
  clear e hs
  induction l with
  | nil => intro a _ _ pa e; rwa [show t = a from e]
  | cons k l ih =>
    intro a ha pr pa e
    obtain ⟨m, x, y⟩ := Turns.cons_iff.1 e
    obtain ⟨nk, nl⟩ := List.nodup_cons.1 nd
    have f := each k a m x
    refine ih nl m (fun h q => ?_) (f.profiles.trans pr)
      (step k a m (ha k List.mem_cons_self) pr pa x) y
    rw [f.heads h fun e => nk (e ▸ q), ha h (List.mem_cons_of_mem _ q)]

/-! ### What turns keep of the part -/

/-- No turn keeps everything. -/
theorem PartKept.refl (s : State) : PartKept s s :=
  ⟨rfl, rfl, rfl, rfl, ⟨rfl, rfl, rfl, rfl⟩, List.prefix_rfl, fun _ => .inl rfl⟩

/-- Turns one after the other keep what each keeps. -/
theorem PartKept.trans (a : PartKept s t) (b : PartKept t u) : PartKept s u where
  profiles := b.profiles.trans a.profiles
  mu := b.mu.trans a.mu
  slots := b.slots.trans a.slots
  interlocks := b.interlocks.trans a.interlocks
  clock := ⟨b.clock.1.trans a.clock.1, b.clock.2.1.trans a.clock.2.1,
    b.clock.2.2.1.trans a.clock.2.2.1, b.clock.2.2.2.trans a.clock.2.2.2⟩
  results := a.results.trans b.results
  service g := (b.service g).elim (fun e => (a.service g).imp e.trans e.trans) .inr

/-! ### A fault taken whole -/

/-- A fault taken whole follows its head. -/
theorem FaultActs.follows {h : HeadId} {k : FaultKind} (f : FaultActs h k s t) :
    Follows (fun j => j = h) s t where
  heads := f.others.heads
  profiles := f.others.profiles
  results := by
    by_cases a : s.actionOn h k = .suspend
    · rw [(f.suspends a).1.results]
    · rw [(f.ends a).results]; exact List.prefix_append _ _

/-! ### What a head's turn leaves of a generator -/

/-- What the turn of head `h` may change of generator `j`: its rescue place, where the head stands there, and the
idle timer, where the head is bound to it and no head holds it afterwards (R103, R116). -/
structure Touched (h : HeadId) (j : GenId) (s t : State) : Prop where
  shape : t.gen j =
    { s.gen j with
        idleTimer := (t.gen j).idleTimer, inService := (t.gen j).inService,
        limitTimer := (t.gen j).limitTimer, rotation := (t.gen j).rotation }
  place : (s.gen j).inService ≠ some h →
    (t.gen j).inService = (s.gen j).inService ∧ (t.gen j).limitTimer = (s.gen j).limitTimer
      ∧ (t.gen j).rotation = (s.gen j).rotation
  freed : (t.gen j).inService = (s.gen j).inService ∨ (t.gen j).inService = none
  idle : (s.gen j).state ≠ .ready ∨ (s.head h).cfg.binding ≠ some j ∨ t.genHeld j = true →
    (t.gen j).idleTimer = (s.gen j).idleTimer

/-- A generator that the turn neither serves nor idles stays. -/
theorem Touched.same {h : HeadId} {j : GenId} (x : Touched h j s t)
    (n : (s.gen j).inService ≠ some h)
    (i : (s.gen j).state ≠ .ready ∨ (s.head h).cfg.binding ≠ some j ∨ t.genHeld j = true) :
    t.gen j = s.gen j := by
  obtain ⟨a, b, c⟩ := x.place n
  rw [x.shape, a, b, c, x.idle i]

/-- What a joint's end leaves of a generator touches it. -/
theorem Touched.of_afterEnd {h : HeadId} {j : GenId} {m : RescueMode} {b o : Bool} {d : Nat}
    (e : t.gen j = (s.gen j).afterEnd h m b o d)
    (i : b = true → (s.head h).cfg.binding = some j ∧ (o = false → t.genHeld j = false)) :
    Touched h j s t := by
  refine ⟨?_, fun n => ?_, ?_, fun q => ?_⟩ <;> rw [e] <;> unfold Generator.afterEnd
  · dsimp only; split <;> split <;> rfl
  · simp only [n, if_false]; split <;> exact ⟨rfl, rfl, rfl⟩
  · by_cases p : (s.gen j).inService = some h <;> simp only [p, if_true, if_false] <;> split <;> simp
  · dsimp only
    split
    · next p =>
      simp only [Bool.and_eq_true, beq_iff_eq, Bool.not_eq_true'] at p
      obtain ⟨x, y⟩ := i p.1.1
      rcases q with q | q | q
      · exact absurd p.1.2 q
      · exact absurd x q
      · rw [y p.2] at q; cases q
    · split <;> rfl

/-- A fault taken whole touches each generator. -/
theorem FaultActs.touched {h : HeadId} {k : FaultKind} (f : FaultActs h k s t) (j : GenId) :
    Touched h j s t := by
  by_cases a : s.actionOn h k = .suspend
  · exact .of_afterEnd ((f.suspends a).1.gens j) nofun
  · have e := f.ends a
    refine .of_afterEnd (e.gens j) fun b => ⟨by simpa using b, fun o => ?_⟩
    simp only [State.heldByOther, List.any_eq_false, mem_allHeads, forall_const, State.genHeld] at o ⊢
    intro x
    by_cases n : x = h
    · subst n; simp [State.holds, e.ctx, HeadState.holdsJoint]
    · have y := o x
      simp only [State.holds, f.others.heads x n] at y ⊢
      simpa [n] using y

/-- A fault taken whole keeps the part. -/
theorem FaultActs.partKept {h : HeadId} {k : FaultKind} (f : FaultActs h k s t) : PartKept s t :=
  ⟨f.others.profiles, f.others.mu, f.others.slots, f.others.interlocks, f.others.clock,
    f.follows.results, fun g => (f.touched g).freed⟩

/-- A fault taken whole keeps the head's configuration. -/
theorem FaultActs.cfg {h : HeadId} {k : FaultKind} (f : FaultActs h k s t) :
    (t.head h).cfg = (s.head h).cfg := by
  by_cases a : s.actionOn h k = .suspend
  · exact (f.suspends a).1.kept.1
  · exact (f.ends a).kept.1

end Sys2Proof.Machine
end

