-- ==== Sys2Proof/Laws/Generators.lean ====
section
/-! SUPPORT. What a generator's entry into FAULTED or READY leaves, from the turns of its heads: the generators, the
other heads and the rest of the part. -/

namespace Sys2Proof.Machine

variable {s t u : State}

/-! ### Into FAULTED (R122) -/

@[simp] theorem State.faultEntered_head (g : GenId) (c : GenCause) (h : HeadId) :
    (s.faultEntered g c).head h = s.head h := State.head_of_heads (State.modGen_heads s g _) h

/-- The entry itself changes no other generator. -/
theorem State.faultEntered_gen_other {g j : GenId} (c : GenCause) (n : j ≠ g) :
    (s.faultEntered g c).gen j = s.gen j := State.gen_modGen_other _ _ n

/-- The entered generator is FAULTED with no head in service. -/
theorem State.faultEntered_gen (g : GenId) (c : GenCause) :
    ((s.faultEntered g c).gen g).state = .faulted ∧ ((s.faultEntered g c).gen g).inService = none := by
  rw [State.faultEntered, show ∀ (x : State) rp, State.gen { x with rp := rp } g = x.gen g from
    fun _ _ => rfl, State.gen_modGen_same]
  exact ⟨rfl, rfl⟩

/-- The entry itself keeps the part. -/
theorem State.faultEntered_part (g : GenId) (c : GenCause) : PartKept s (s.faultEntered g c) := by
  refine ⟨by simp [State.faultEntered], by simp [State.faultEntered], by simp [State.faultEntered],
    by simp [State.faultEntered], by simp [State.faultEntered], by simp [State.faultEntered],
    fun j => ?_⟩
  by_cases n : j = g
  · subst n; exact .inr (State.faultEntered_gen j c).2
  · rw [State.faultEntered_gen_other c n]; exact .inl rfl

/-- An entry into FAULTED is known from its turns. -/
theorem GenFaulted.of_turns {g : GenId} {cause : GenCause}
    (e : Turns (fun h a b => (s.heatedBy g h → FaultActs h .generatorFault a b)
      ∧ (¬ s.heatedBy g h → b = a)) allHeads (s.faultEntered g cause) t) :
    GenFaulted g cause s t := by
  have each : ∀ k a b, ((s.heatedBy g k → FaultActs k .generatorFault a b)
      ∧ (¬ s.heatedBy g k → b = a)) → Follows (fun j => j = k) a b := fun k a b f => by
    by_cases q : s.heatedBy g k
    · exact (f.1 q).follows
    · rw [f.2 q]; exact .refl _ _
  have nd : allHeads.Nodup := by decide
  refine ⟨e, ?_, fun j n hj => ?_, fun h q => ?_, ?_⟩
  · refine Turns.keeps (P := fun a => a.gen g = (s.faultEntered g cause).gen g) each
      (fun h a b _ _ pa f => ?_) nd rfl e
    by_cases q : s.heatedBy g h
    · rw [← pa]
      obtain ⟨x, y⟩ := State.faultEntered_gen (s := s) g cause
      exact ((f.1 q).touched g).same (by rw [pa, y]; nofun) (.inl (by rw [pa, x]; nofun))
    · rw [f.2 q, pa]
  · refine Turns.keeps (P := fun a => a.gen j = s.gen j) each (fun h a b ha _ pa f => ?_) nd
      (State.faultEntered_gen_other cause n) e
    by_cases q : s.heatedBy g h
    · rw [State.faultEntered_head] at ha
      have bj : (s.head h).cfg.binding ≠ some j := by rw [q.1]; simpa using Ne.symm n
      rw [((f.1 q).touched j).same (by rw [pa]; exact fun i => bj (hj h i))
        (.inr (.inl (by rw [ha]; exact bj))), pa]
    · rw [f.2 q, pa]
  · obtain ⟨a, b, ha, -, f, hb, -⟩ := Turns.at (owner := id) each nd (mem_allHeads h) e
    rw [hb, f.2 q, ha, State.faultEntered_head]
  · refine Turns.keeps (P := fun a => PartKept s a) each (fun h a b _ _ pa f => ?_) nd
      (State.faultEntered_part g cause) e
    by_cases q : s.heatedBy g h
    · exact pa.trans (f.1 q).partKept
    · rw [f.2 q]; exact pa

/-! ### A head's entry (R29, R135) -/

/-- A head entering a segment keeps its configuration. -/
@[simp] theorem Head.entered_cfg (x : Head) (seg : Segment) (now : Word32) (three : Nat) :
    (x.entered seg now three).cfg = x.cfg := by cases seg <;> rfl

/-- The state a head's entry leaves before its entry test: entered, its service over unless the segment is a SOAK. -/
theorem EntryTurn.cases {h : HeadId} (e : EntryTurn h s t) :
    (s.segment h = none ∧ t = s) ∨ ∃ seg v, s.segment h = some seg
      ∧ v.head h = (s.head h).entered seg s.timebase (3 * s.slots.period)
      ∧ Follows (fun j => j = h) s v ∧ PartKept s v
      ∧ (∀ j, Touched h j s v ∧ (v.gen j).idleTimer = (s.gen j).idleTimer)
      ∧ (t = v ∨ ∃ k, FaultActs h k v t)
      ∧ (seg.heats = false ∨ (s.verdict h = true ∧ s.latched h = false) → t = v) := by
  cases q : s.segment h with
  | none => exact .inl ⟨rfl, e.stays q⟩
  | some seg =>
    refine .inr ⟨seg, _, rfl, ?_, ?_, ?_, fun j => ?_, ?_, (e.enters seg q).1⟩
    · split <;> simp
    · split
      · exact ⟨fun j n => State.head_modHead_other _ _ n, rfl, List.prefix_rfl⟩
      · exact ⟨fun j n => State.leaving_head_other s _ n, rfl, List.prefix_rfl⟩
    · split
      · exact ⟨rfl, rfl, rfl, rfl, ⟨rfl, rfl, rfl, rfl⟩, List.prefix_rfl, fun _ => .inl rfl⟩
      · refine ⟨rfl, rfl, rfl, rfl, ⟨rfl, rfl, rfl, rfl⟩, List.prefix_rfl, fun j => ?_⟩
        exact (Touched.of_afterEnd (State.leaving_gen s h _ j) nofun).freed
    · split
      · exact ⟨⟨rfl, fun _ => ⟨rfl, rfl, rfl⟩, .inl rfl, fun _ => rfl⟩, rfl⟩
      · refine ⟨.of_afterEnd (State.leaving_gen s h _ j) nofun, ?_⟩
        rw [State.leaving_gen]; unfold Generator.afterEnd; dsimp only; split <;> split <;> first | rfl | simp_all
    · obtain ⟨x, y, z⟩ := e.enters seg q
      by_cases c : seg.heats = true
      · cases l : s.latched h
        · cases w : s.verdict h
          · exact .inr ⟨_, z c l w⟩
          · exact .inl (x (.inr ⟨w, l⟩))
        · exact .inr ⟨_, y c l⟩
      · exact .inl (x (.inl (by simpa using c)))

/-- A head's entry follows it. -/
theorem EntryTurn.follows {h : HeadId} (e : EntryTurn h s t) : Follows (fun j => j = h) s t := by
  rcases e.cases with ⟨-, rfl⟩ | ⟨seg, v, -, -, f, -, -, rfl | ⟨k, a⟩, -⟩
  · exact .refl _ _
  · exact f
  · exact f.trans a.follows

/-- A head's entry keeps the part. -/
theorem EntryTurn.partKept {h : HeadId} (e : EntryTurn h s t) : PartKept s t := by
  rcases e.cases with ⟨-, rfl⟩ | ⟨seg, v, -, -, -, f, -, rfl | ⟨k, a⟩, -⟩
  · exact .refl _
  · exact f
  · exact f.trans a.partKept

/-- A head's entry touches each generator. -/
theorem EntryTurn.touched {h : HeadId} (e : EntryTurn h s t) (j : GenId) : Touched h j s t := by
  rcases e.cases with ⟨-, rfl⟩ | ⟨seg, v, -, hv, -, -, f, rfl | ⟨k, a⟩, -⟩
  · exact ⟨rfl, fun _ => ⟨rfl, rfl, rfl⟩, .inl rfl, fun _ => rfl⟩
  · exact (f j).1
  · obtain ⟨x, i⟩ := f j
    have y := a.touched j
    refine ⟨?_, fun n => ?_, ?_, fun q => ?_⟩
    · rw [y.shape, x.shape]
    · obtain ⟨x1, x2, x3⟩ := x.place n
      obtain ⟨y1, y2, y3⟩ := y.place (by rw [x1]; exact n)
      exact ⟨y1.trans x1, y2.trans x2, y3.trans x3⟩
    · exact y.freed.elim (fun e => x.freed.imp e.trans e.trans) .inr
    · refine (y.idle ?_).trans i
      rw [hv, Head.entered_cfg, x.shape]
      exact q

/-! ### Into READY (R113) -/

/-- An entry into READY is known from its turns. -/
theorem GenReadied.of_turns {g : GenId} {w : State}
    (e : Turns (fun h a b => (s.waitsFor g h → EntryTurn h a b)
        ∧ (¬ s.waitsFor g h → b = a)) allHeads
      (s.modGen g fun x =>
        { x with state := .ready, wakeTimer := none, statusTimer := some (3 * s.slots.period) }) w)
    (et : t = { w.modGen g (fun x =>
          if w.genHeld g then x else { x with idleTimer := some s.mu.config.idleDelay }) with
        rp := s.offered w.rp
          ([2, genCode g, 2, 3, 0] ++ optBytes le16 (s.gen g).bus ++ [s.slots.number]) }) :
    GenReadied g s t := by
  have each : ∀ k a b, ((s.waitsFor g k → EntryTurn k a b)
      ∧ (¬ s.waitsFor g k → b = a)) → Follows (fun j => j = k) a b := fun k a b f => by
    by_cases q : s.waitsFor g k
    · exact (f.1 q).follows
    · rw [f.2 q]; exact .refl _ _
  have nd : allHeads.Nodup := by decide
  have th : ∀ h, t.head h = w.head h := fun h => by
    rw [et]; exact State.head_of_heads (State.modGen_heads w g _) h
  have tg : t.gen g = if w.genHeld g then w.gen g
      else { w.gen g with idleTimer := some s.mu.config.idleDelay } := by
    rw [et]; exact State.gen_modGen_same w g _
  have tj : ∀ j, j ≠ g → t.gen j = w.gen j := fun j n => by
    rw [et]; exact State.gen_modGen_other _ _ n
  have held : t.genHeld g = w.genHeld g := by
    unfold State.genHeld State.holds; simp only [th]
  have part : PartKept w t := by
    rw [et]
    refine ⟨by simp, by simp, by simp, by simp, by simp, by simp, fun j => .inl ?_⟩
    rw [← et]
    by_cases n : j = g
    · subst n; rw [tg]; split <;> rfl
    · rw [tj j n]
  have start : PartKept s (s.modGen g fun x =>
      { x with state := .ready, wakeTimer := none, statusTimer := some (3 * s.slots.period) }) := by
    refine ⟨by simp, by simp, by simp, by simp, by simp, by simp, fun j => .inl ?_⟩
    by_cases n : j = g
    · subst n; rw [State.gen_modGen_same]
    · rw [State.gen_modGen_other _ _ n]
  have keep : ∀ k a b, PartKept s a → ((s.waitsFor g k → EntryTurn k a b)
      ∧ (¬ s.waitsFor g k → b = a)) → PartKept s b := fun k a b pa f => by
    by_cases q : s.waitsFor g k
    · exact pa.trans (f.1 q).partKept
    · rw [f.2 q]; exact pa
  have own : w.gen g =
      { s.gen g with
          state := .ready, wakeTimer := none, statusTimer := some (3 * s.slots.period),
          idleTimer := (w.gen g).idleTimer, inService := (w.gen g).inService,
          limitTimer := (w.gen g).limitTimer, rotation := (w.gen g).rotation }
      ∧ (w.genHeld g = true → (w.gen g).idleTimer = (s.gen g).idleTimer) := by
    refine Turns.keeps (P := fun a => a.gen g =
        { s.gen g with
            state := .ready, wakeTimer := none, statusTimer := some (3 * s.slots.period),
            idleTimer := (a.gen g).idleTimer, inService := (a.gen g).inService,
            limitTimer := (a.gen g).limitTimer, rotation := (a.gen g).rotation }
        ∧ (a.genHeld g = true → (a.gen g).idleTimer = (s.gen g).idleTimer)) each
      (fun h a b ha _ pa f => ?_) nd (by simp) e
    by_cases q : s.waitsFor g h
    · rw [State.head_modGen] at ha
      have x := (f.1 q).touched g
      have ah : a.genHeld g = true := by
        refine List.any_eq_true.2 ⟨h, mem_allHeads h, ?_⟩
        simp [State.holds, ha, q.1, q.2, HeadState.holdsJoint]
      refine ⟨?_, fun bh => (x.idle (.inr (.inr bh))).trans (pa.2 ah)⟩
      rw [x.shape, pa.1]
    · rw [f.2 q]; exact pa
  refine ⟨⟨w, e, et⟩, ?_, fun hj => ?_, fun h seg q sg ok => ?_, fun h q => ?_, ?_⟩
  · rw [held, tg]
    split
    · next x => rw [own.1, own.2 x]
    · rw [own.1]
  · have places : (∀ j, (w.gen j).inService = (s.gen j).inService
        ∧ (w.gen j).limitTimer = (s.gen j).limitTimer ∧ (w.gen j).rotation = (s.gen j).rotation)
        ∧ ∀ j, j ≠ g → w.gen j = s.gen j := by
      refine Turns.keeps (P := fun a => (∀ j, (a.gen j).inService = (s.gen j).inService
          ∧ (a.gen j).limitTimer = (s.gen j).limitTimer ∧ (a.gen j).rotation = (s.gen j).rotation)
          ∧ ∀ j, j ≠ g → a.gen j = s.gen j) each (fun h a b ha _ pa f => ?_) nd ⟨fun j => ?_,
          fun j n => State.gen_modGen_other _ _ n⟩ e
      · by_cases q : s.waitsFor g h
        · rw [State.head_modGen] at ha
          have out : ∀ j, (a.gen j).inService ≠ some h := fun j i =>
            hj j h (by rw [← (pa.1 j).1, i]) q.2
          refine ⟨fun j => ?_, fun j n => ?_⟩
          · obtain ⟨x, y, z⟩ := ((f.1 q).touched j).place (out j)
            rw [x, y, z]; exact pa.1 j
          · rw [((f.1 q).touched j).same (out j)
              (.inr (.inl (by rw [ha, q.1]; simpa using Ne.symm n))), pa.2 j n]
        · rw [f.2 q]; exact pa
      · by_cases n : j = g
        · subst n; rw [State.gen_modGen_same]; exact ⟨rfl, rfl, rfl⟩
        · rw [State.gen_modGen_other _ _ n]; exact ⟨rfl, rfl, rfl⟩
    obtain ⟨x, y, z⟩ := places.1 g
    have same : (t.gen g).inService = (w.gen g).inService ∧ (t.gen g).limitTimer = (w.gen g).limitTimer
        ∧ (t.gen g).rotation = (w.gen g).rotation := by
      rw [tg]; split <;> exact ⟨rfl, rfl, rfl⟩
    exact ⟨same.1.trans x, same.2.1.trans y, same.2.2.trans z, fun j n =>
      (tj j n).trans (places.2 j n)⟩
  · obtain ⟨a, b, ha, pr, pa, f, hb, -⟩ :=
      Turns.at_keeping (owner := id) each keep nd (mem_allHeads h) start e
    rw [State.head_modGen] at ha
    have as : a.segment h = some seg := by
      rw [← sg]
      simp [State.segment, State.recipe, State.profile, ha, pa.profiles]
    have av : seg.heats = false ∨ (a.verdict h = true ∧ a.latched h = false) := by
      simpa [State.verdict, State.latched, State.group, ha, pa.interlocks] using ok
    rcases EntryTurn.cases (h := h) (f.1 q) with ⟨n, -⟩ | ⟨seg', v, sg', hv, -, -, -, -, last⟩
    · rw [as] at n; cases n
    · rw [as] at sg'; cases sg'
      rw [th, hb, last av, hv, ha, pa.clock.1, pa.slots]
  · obtain ⟨a, b, ha, -, f, hb, -⟩ := Turns.at (owner := id) each nd (mem_allHeads h) e
    rw [th, hb, f.2 q, ha, State.head_modGen]
  · refine .trans ?_ part
    exact Turns.keeps each (fun h a b _ _ pa f => keep h a b pa f) nd start e

end Sys2Proof.Machine
end

