-- ==== Sys2Proof/Laws/Losses.lean ====
section
/-! SUPPORT. What the turns of an interlock event leave at each head: from the order in which they act to the outcome
of each head. -/

namespace Sys2Proof.Machine

variable {s t u : State}

/-! ### One head's turn -/

/-- A fault of fixed severity ABORT costs the head its joint (R140, R145). -/
theorem FaultActs.jointLost {h : HeadId} {k : FaultKind} (f : FaultActs h k s t)
    (ab : k.fixedAbort = true) : JointLost h k [k] s t := by
  have e := f.ends (by simp [State.actionOn, ab])
  refine ⟨by simp [e.ctx], by simp [e.ctx], by simp [e.ctx], fun j => ?_, _,
    by rw [e.results]; exact List.mem_append_right _ (List.mem_singleton_self _), rfl, rfl, rfl, rfl⟩
  rw [f.recorded.status j, List.mem_singleton]

/-- A head's turn follows it. -/
theorem LossTurn.follows {h : HeadId} {k : FaultKind} (ck : k = .coolantLost ∨ k = .interlockLost)
    {r : Prop} (f : LossTurn h k r s t) : Follows (fun j => j = h) s t := by
  cases st : (s.head h).ctx.state
  case running =>
    cases c : s.inCool h
    · exact (f.heating (.inl ⟨st, c⟩)).follows
    · by_cases q : r
      · rw [(f.cooling st c).1 q]; exact .refl _ _
      · rw [(f.cooling st c).2 q]
        exact ⟨fun j n => State.head_modHead_other _ _ n, rfl, List.prefix_rfl⟩
  case waitGen => exact (f.heating (.inr st)).follows
  case suspended =>
    rcases ck with e | e
    · have n := (f.suspended st).2 e
      exact ⟨n.others.heads, n.others.profiles, by rw [n.rest.1]⟩
    · exact ((f.suspended st).1 e).follows
  all_goals
    rw [f.kept (by simp [State.holds, st, HeadState.holdsJoint])]; exact .refl _ _

/-- A head's turn leaves its inputs. -/
theorem LossTurn.inputs {h : HeadId} {k : FaultKind} (ck : k = .coolantLost ∨ k = .interlockLost)
    {r : Prop} (f : LossTurn h k r s t) : (t.head h).inputs = (s.head h).inputs := by
  have whole : FaultActs h k s t → (t.head h).inputs = (s.head h).inputs := fun a => by
    by_cases q : s.actionOn h k = .suspend
    · exact (a.suspends q).1.kept.2.2
    · exact (a.ends q).kept.2.2
  cases st : (s.head h).ctx.state
  case running =>
    cases c : s.inCool h
    · exact whole (f.heating (.inl ⟨st, c⟩))
    · by_cases q : r
      · rw [(f.cooling st c).1 q]
      · rw [(f.cooling st c).2 q, State.head_modHead_same]
  case waitGen => exact whole (f.heating (.inr st))
  case suspended =>
    rcases ck with e | e
    · rw [((f.suspended st).2 e).head]
    · exact whole ((f.suspended st).1 e)
  all_goals rw [f.kept (by simp [State.holds, st, HeadState.holdsJoint])]

/-! ### The whole event -/

/-- A group's coolant loss follows its heads. -/
theorem CoolantLost.follows {g : GroupId} (f : CoolantLost g s t) :
    Follows (fun j => groupOf j = g) s t := by
  have q := Turns.follows (owner := id) (fun k a b => LossTurn.follows (.inl rfl)) f
  refine ⟨fun j n => q.heads j fun m => n ?_, q.profiles, q.results⟩
  simpa [groupOf, Fin.ext_iff] using (List.mem_filter.1 m).2

/-- In a group's coolant loss each of its heads has its turn. -/
theorem CoolantLost.at {h : HeadId} (f : CoolantLost (groupOf h) s t) :
    ∃ a b, a.head h = s.head h ∧ a.profiles = s.profiles ∧ LossTurn h .coolantLost False a b
      ∧ t.head h = b.head h ∧ b.results <+: t.results := by
  have all : ∀ k : HeadId, k ∈ allHeads.filter fun j => j.val / 4 = (groupOf k).val := by decide
  have nd : ∀ g : GroupId, (allHeads.filter fun j => j.val / 4 = g.val).Nodup := by decide
  unfold CoolantLost at f
  obtain ⟨a, b, q⟩ :=
    Turns.at (owner := id) (fun k a b => LossTurn.follows (.inl rfl)) (nd _) (all h) f
  exact ⟨a, b, q⟩

/-- What head `h` meets in an interlock event from `v` to `t`: its coolant turn where its group is lost, up to `u`,
and its interlock turn where it loses its interlocks. -/
theorem LossesActedOn.at {lost : GroupId → Prop} {loses : HeadId → Prop} {v : State}
    (e : LossesActedOn lost loses v t) (h : HeadId) :
    ∃ u : State, u.profiles = v.profiles ∧ u.results <+: t.results
      ∧ (lost (groupOf h) → ∃ a b, a.head h = v.head h ∧ a.profiles = v.profiles
          ∧ LossTurn h .coolantLost False a b ∧ u.head h = b.head h ∧ b.results <+: u.results)
      ∧ (¬ lost (groupOf h) → u.head h = v.head h)
      ∧ (loses h → ∃ a b, a.head h = u.head h ∧ a.profiles = u.profiles
          ∧ LossTurn h .interlockLost (lost (groupOf h)) a b ∧ t.head h = b.head h
          ∧ b.results <+: t.results)
      ∧ (¬ loses h → t.head h = u.head h) := by
  obtain ⟨u, gs, hs⟩ := e
  have eg : ∀ g a b, ((lost g → CoolantLost g a b) ∧ (¬ lost g → b = a)) →
      Follows (fun j => groupOf j = g) a b := fun g a b f => by
    by_cases q : lost g
    · exact (f.1 q).follows
    · rw [f.2 q]; exact .refl _ _
  have eh : ∀ k a b, ((loses k → LossTurn k .interlockLost (lost (groupOf k)) a b)
      ∧ (¬ loses k → b = a)) → Follows (fun j => id j = k) a b := fun k a b f => by
    by_cases q : loses k
    · exact (f.1 q).follows (.inr rfl)
    · rw [f.2 q]; exact .refl _ _
  obtain ⟨a, b, ha, pa, ⟨l1, l2⟩, hb, rb⟩ :=
    Turns.at (owner := groupOf) eg (h := h) (by decide) (by revert h; decide) gs
  obtain ⟨c, d, hc, pc, ⟨m1, m2⟩, hd, rd⟩ :=
    Turns.at (owner := id) eh (h := h) (by decide) (mem_allHeads h) hs
  refine ⟨u, (Turns.follows eg gs).profiles, (Turns.follows eh hs).results, fun q => ?_, fun q => ?_,
    fun q => ⟨c, d, hc, pc, m1 q, hd, rd⟩, fun q => by rw [hd, m2 q, hc]⟩
  · obtain ⟨x, y, hx, px, tx, hy, ry⟩ := CoolantLost.at (l1 q)
    exact ⟨x, y, hx.trans ha, px.trans pa, tx, hb.trans hy, ry.trans rb⟩
  · rw [hb, l2 q, ha]

/-- The segment a head runs in rests on its context and the profiles. -/
theorem State.inCool_congr {s t : State} {h : HeadId} (c : (s.head h).ctx = (t.head h).ctx)
    (p : s.profiles = t.profiles) : s.inCool h = t.inCool h := by
  simp [State.inCool, State.segment, State.recipe, State.profile, c, p]

/-- A joint lost in a head's turn is lost in the whole event. -/
theorem JointLost.carry {h : HeadId} {k : FaultKind} {ks js : List FaultKind} {a b : State}
    (l : JointLost h k ks a b) (c : (a.head h).ctx.serial = (s.head h).ctx.serial)
    (f : ∀ j, j ∈ ks ∨ j ∈ (a.head h).fr.status ↔ j ∈ js ∨ j ∈ (s.head h).fr.status)
    (e : t.head h = b.head h) (r : b.results <+: t.results) : JointLost h k js s t := by
  obtain ⟨l1, l2, l3, l4, q, m, h1, h2, h3, h4⟩ := l
  rw [← e] at l1 l2 l3 l4
  exact ⟨l1, l2, l3, fun j => (l4 j).trans (f j), q, r.subset m, h1, h2.trans c, h3, h4⟩

/-- What an interlock event leaves at each head, by the head's state before it (R132, R134). -/
theorem LossesActedOn.lossActs {lost : GroupId → Prop} {loses : HeadId → Prop} {v : State}
    (e : LossesActedOn lost loses v t)
    (hv : ∀ h, v.head h = { s.head h with inputs := (v.head h).inputs })
    (pv : v.profiles = s.profiles) (h : HeadId) :
    LossActs h (lost (groupOf h)) (loses h) s t ∧ (t.head h).inputs = (v.head h).inputs := by
  obtain ⟨u, pu, ru, c1, c2, i1, i2⟩ := e.at h
  have vc : (v.head h).ctx = (s.head h).ctx := by rw [hv]
  have vf : (v.head h).fr = (s.head h).fr := by rw [hv]
  have cool := State.inCool_congr vc pv
  have idle : u.holds h = false → t.head h = u.head h := fun n => by
    by_cases q : loses h
    · obtain ⟨a, b, ha, -, tn, hb, -⟩ := i1 q
      rw [hb, tn.kept (by simpa [State.holds, ha] using n), ha]
    · exact i2 q
  have ins : (t.head h).inputs = (v.head h).inputs := by
    have x : (u.head h).inputs = (v.head h).inputs := by
      by_cases q : lost (groupOf h)
      · obtain ⟨a, b, ha, -, tn, hb, -⟩ := c1 q
        rw [hb, tn.inputs (.inl rfl), ha]
      · rw [c2 q]
    rw [← x]
    by_cases q : loses h
    · obtain ⟨a, b, ha, -, tn, hb, -⟩ := i1 q
      rw [hb, tn.inputs (.inr rfl), ha]
    · rw [i2 q]
  refine ⟨⟨fun st => ⟨fun q => ?_, fun q r => ?_⟩, fun st k q => ?_, fun st =>
    ⟨fun r q => ?_, fun r q => ?_, fun r q => ?_⟩, fun q => ?_⟩, ins⟩
  · obtain ⟨a, b, ha, pa, tn, hb, rb⟩ := c1 q
    have ac : (a.head h).ctx = (s.head h).ctx := by rw [ha, vc]
    rw [← State.inCool_congr ac (pa.trans pv), ← ac] at st
    have l := (tn.heating st).jointLost rfl
    have n : u.holds h = false := by simp [State.holds, hb, l.1, HeadState.holdsJoint]
    exact l.carry (by rw [ac]) (by simp [ha, vf]) ((idle n).trans hb) (rb.trans ru)
  · obtain ⟨a, b, ha, pa, tn, hb, rb⟩ := i1 r
    have ac : (a.head h).ctx = (s.head h).ctx := by rw [ha, c2 q, vc]
    rw [← State.inCool_congr ac (pa.trans (pu.trans pv)), ← ac] at st
    exact ((tn.heating st).jointLost rfl).carry (by rw [ac]) (by simp [ha, c2 q, vf]) hb rb
  · have step : ∀ {k : FaultKind} {r : Prop} {a b : State}, LossTurn h k r a b →
        (a.head h).ctx = (s.head h).ctx → a.profiles = s.profiles → ¬ r →
        b.head h = { a.head h with
          ctx := { (a.head h).ctx with earlyRelease := true },
          deviations := (a.head h).deviations.set 8 (min ((a.head h).deviations[8] + 1) 65535) } :=
      fun tn c p n => by
        rw [(tn.cooling (by rw [c, st]) (by rw [State.inCool_congr c p, k])).2 n,
          State.head_modHead_same]
    rw [ins]
    by_cases m : lost (groupOf h)
    · obtain ⟨a, b, ha, pa, tn, hb, -⟩ := c1 m
      have ub := step tn (by rw [ha, vc]) (pa.trans pv) id
      rw [ha, ← hb] at ub
      have last : t.head h = u.head h := by
        by_cases r : loses h
        · obtain ⟨c, d, hc, pc, tn, hd, -⟩ := i1 r
          have cc : (c.head h).ctx.state = .running := by rw [hc, ub, vc, st]
          have kk : c.inCool h = true := by
            rw [← k]
            simp [State.inCool, State.segment, State.recipe, State.profile, hc, ub, vc, pc, pu, pv]
          rw [hd, (tn.cooling cc kk).1 m, hc]
        · exact i2 r
      rw [last, ub, hv]
    · obtain ⟨a, b, ha, pa, tn, hb, -⟩ := i1 (q.resolve_left m)
      have ub := step tn (by rw [ha, c2 m, vc]) (pa.trans (pu.trans pv)) m
      rw [hb, ub, ha, c2 m, hv]
  · obtain ⟨a, b, ha, pa, tn, hb, rb⟩ := i1 r
    have ac : (a.head h).ctx = (s.head h).ctx := by rw [ha, c2 q, vc]
    rw [← ac] at st
    exact (((tn.suspended st).1 rfl).jointLost rfl).carry (by rw [ac]) (by simp [ha, c2 q, vf]) hb rb
  · obtain ⟨a, b, ha, pa, tn, hb, -⟩ := c1 q
    obtain ⟨c, d, hc, pc, un, hd, rd⟩ := i1 r
    have n := (tn.suspended (by rw [ha, vc, st])).2 rfl
    have bc : (b.head h).ctx = (s.head h).ctx := by rw [n.head, ha, vc]
    have cc : (c.head h).ctx = (s.head h).ctx := by rw [hc, hb, bc]
    refine (((un.suspended (by rw [cc, st])).1 rfl).jointLost rfl).carry (by rw [cc]) (fun j => ?_)
      hd rd
    rw [hc, hb, n.recorded.status j, ha, vf]
    simp only [List.mem_cons, List.not_mem_nil, or_false]
    tauto
  · obtain ⟨a, b, ha, pa, tn, hb, -⟩ := c1 q
    have n := (tn.suspended (by rw [ha, vc, st])).2 rfl
    have th : t.head h = b.head h := (i2 r).trans hb
    refine ⟨?_, fun j => by rw [th, n.recorded.status j, ha, vf]⟩
    rw [ins, th, n.head, ha, hv]
  · have vu : u.head h = v.head h := by
      by_cases m : lost (groupOf h)
      · obtain ⟨a, b, ha, -, tn, hb, -⟩ := c1 m
        have no : s.holds h = false := q.resolve_left fun n => n.1 m
        rw [hb, tn.kept (by simpa [State.holds, ha, vc] using no), ha]
      · exact c2 m
    have tu : t.head h = u.head h := by
      by_cases r : loses h
      · exact idle (by simpa [State.holds, vu, vc] using q.resolve_left fun n => n.2 r)
      · exact i2 r
    rw [ins, tu, vu]; exact hv h

end Sys2Proof.Machine
end

