-- ==== Sys2Proof/Laws/Requests.lean ====
section
/-! SUPPORT. What the arrival and the taking of a request can do, and which head, generator, group or profile a
byte names. -/

namespace Sys2Proof.Machine

/-! ### Bytes -/

/-- A number below 256 is read back from its byte. -/
theorem toNat_byte {n : Nat} (h : n < 256) : (byte n).toNat = n := by
  simp [byte, BitVec.toNat_ofNat, Nat.mod_eq_of_lt h]

@[simp] theorem headOf_byte (h : HeadId) : headOf (byte h.val) = some h := by
  have e : (byte h.val).toNat = h.val := toNat_byte (by omega)
  simp [headOf, e]

theorem headOf_none {b : Byte} (h : 16 ≤ b.toNat) : headOf b = none := by
  simp [headOf, Nat.not_lt.2 h]

@[simp] theorem profileOf_byte (p : ProfileId) : profileOf (byte p.val) = some p := by
  have e : (byte p.val).toNat = p.val := toNat_byte (by omega)
  simp [profileOf, e]

theorem profileOf_none {b : Byte} (h : 32 ≤ b.toNat) : profileOf b = none := by
  simp [profileOf, Nat.not_lt.2 h]

@[simp] theorem groupOfByte_byte (g : GroupId) : groupOfByte (byte g.val) = some g := by
  have e : (byte g.val).toNat = g.val := toNat_byte (by omega)
  simp [groupOfByte, e]

theorem groupOfByte_none {b : Byte} (h : 4 ≤ b.toNat) : groupOfByte b = none := by
  simp [groupOfByte, Nat.not_lt.2 h]

@[simp] theorem genOf_genCode (g : GenId) : genOf (genCode g) = some g := by cases g <;> rfl

theorem genOf_none {b : Byte} (h : 2 ≤ b.toNat) : genOf b = none := by
  have h0 : b ≠ 0 := by rintro rfl; simp at h
  have h1 : b ≠ 1 := by rintro rfl; simp at h
  simp only [genOf, if_neg h0, if_neg h1]

@[simp] theorem bindingOf_bindingCode (b : Option GenId) : bindingOf (bindingCode b) = some b := by
  rcases b with _ | _ | _ <;> rfl

@[simp] theorem kindOf_byte (k : FaultKind) : kindOf (byte k.idx.val) = some k := by
  cases k <;> rfl

@[simp] theorem withHead_byte (h : HeadId) (f : HeadId → State → Answer) (s : State) :
    withHead (byte h.val) f s = f h s := by simp [withHead]

theorem withHead_none {b : Byte} (h : 16 ≤ b.toNat) (f : HeadId → State → Answer) (s : State) :
    withHead b f s = refuse .badArgument s := by simp [withHead, headOf_none h]

@[simp] theorem withGen_genCode (g : GenId) (f : GenId → State → Answer) (s : State) :
    withGen (genCode g) f s = f g s := by simp [withGen]

theorem withGen_none {b : Byte} (h : 2 ≤ b.toNat) (f : GenId → State → Answer) (s : State) :
    withGen b f s = refuse .badArgument s := by simp [withGen, genOf_none h]

@[simp] theorem withProfile_byte (p : ProfileId) (f : ProfileId → State → Answer) (s : State) :
    withProfile (byte p.val) f s = f p s := by simp [withProfile]

theorem withProfile_none {b : Byte} (h : 32 ≤ b.toNat) (f : ProfileId → State → Answer)
    (s : State) : withProfile b f s = refuse .badArgument s := by
  simp [withProfile, profileOf_none h]

/-! ### Arrival and taking -/

/-- A row runs while RST_N is high. -/
theorem live_of_running {s : State} (f : State → State) (h : s.rstHeld = false) :
    live f s = .next (f s) := by simp [live, h]

/-- No row runs while RST_N is held low. -/
theorem live_of_held {s : State} (f : State → State) (h : s.rstHeld = true) :
    live f s = .next s := by simp [live, h]

/-- A request that is taken at its arrival is carried out with ENG_EN at the level it came at. -/
theorem commandArrives_of_takes {s : State} {r : ReqHead} (h : s.Takes r) (code : Byte)
    (args : List Byte) (take : State → State) :
    live (commandArrives r code args take) s = .next (take { s with engEn := r.engEn }) := by
  obtain ⟨h1, h2, h3, h4, h5, h6, h7, h8⟩ := h
  have open_ : State.transparent { s with engEn := r.engEn } = false := by
    simp only [State.transparent, beq_eq_false_iff_ne.2 h3, beq_eq_false_iff_ne.2 h4, Bool.or_self]
  have foreign : r.source ≠ State.ownStation { s with engEn := r.engEn } := h5
  rw [live_of_running _ h1]
  simp only [commandArrives, receive, h2, open_, if_neg foreign, requestArrives, h8, State.muReady,
    h6, h7, Bool.false_eq_true, if_false, List.length_nil, List.isEmpty_nil, decide_true,
    Bool.not_false, Bool.and_self, if_true]
  rfl

/-- An operator row whose request is taken sends the answer of its body. -/
theorem operatorRow_of_takes {s : State} {r : ReqHead} (h : s.Takes r) (code : Byte)
    (args : List Byte) (body : State → Answer) :
    operatorRow r code args body s =
      .next (sendReply (rowRequest r code args) (body { s with engEn := r.engEn })) :=
  commandArrives_of_takes h ..

/-- An engineer row whose request is taken with effective authority ENGINEER. -/
theorem engineerRow_of_takes {s : State} {r : ReqHead} (h : s.TakesEngineer r) (code : Byte)
    (args : List Byte) (body : State → Answer) :
    engineerRow r code args body s =
      .next (sendReply (rowRequest r code args) (body { s with engEn := r.engEn })) := by
  rw [engineerRow, commandArrives_of_takes h.1]
  simp [serveEngineer, engineer, rowRequest, h.2.1, h.2.2]

/-- An engineer row whose request is taken without that authority is answered DENIED. -/
theorem engineerRow_denied {s : State} {r : ReqHead} (h : s.Takes r) (ne : ¬ IsEngineer r)
    (code : Byte) (args : List Byte) (body : State → Answer) :
    engineerRow r code args body s =
      .next (sendReply (rowRequest r code args) (refuse .denied { s with engEn := r.engEn })) := by
  rw [engineerRow, commandArrives_of_takes h]
  have : engineer (rowRequest r code args) { s with engEn := r.engEn } = false := by
    simp only [IsEngineer, not_and, Bool.not_eq_true] at ne
    by_cases a : r.authority = 1 <;> simp_all [engineer, rowRequest]
  simp [serveEngineer, this]

/-- The answer without effect is the reply alone. -/
@[simp] theorem sendReply_refuse (s : State) (r : ReqHead) (code : Byte) (args : List Byte)
    (st : Status) :
    sendReply (rowRequest r code args) (refuse st { s with engEn := r.engEn }) =
      s.answered r code st [] := rfl

/-- An accepted request's answer is its effect and the reply. -/
theorem sendReply_accept (t : State) (r : ReqHead) (code : Byte) (args data : List Byte)
    (h : t.engEn = r.engEn) :
    sendReply (rowRequest r code args) (accept data t) = t.answered r code .ok data := by
  cases t; cases h; rfl

/-- A request handed to the Management Unit is dropped and counted, taken, or appended (R182, R192). -/
theorem requestArrives_cases (q : Request) (take : State → State) (s : State) :
    (4 ≤ s.mu.requests.length ∧ requestArrives q take s = s.countPort .requestOverflow)
      ∨ (s.mu.requests = [] ∧ s.rp.replies.length < 4 ∧ s.mu.resetPending = false
          ∧ requestArrives q take s = take s)
      ∨ (s.mu.requests.length < 4
          ∧ requestArrives q take s = s.modMu fun m => { m with requests := m.requests ++ [q] }) := by
  by_cases h4 : 4 ≤ s.mu.requests.length
  · exact .inl ⟨h4, by simp [requestArrives, h4]⟩
  · by_cases ready : s.muReady && s.mu.requests.isEmpty
    · simp only [State.muReady, Bool.and_eq_true, decide_eq_true_eq, Bool.not_eq_true',
        List.isEmpty_iff] at ready
      refine .inr (.inl ⟨ready.2, ready.1.1, ready.1.2, ?_⟩)
      simp [requestArrives, State.muReady, ready]
    · exact .inr (.inr ⟨by omega, by simp [requestArrives, h4, ready]⟩)

/-- Waiting requests are taken first in, first out (R192). -/
theorem takeOldest_cases (s : State) :
    (s.mu.requests = [] ∧ takeOldest s = s)
      ∨ ∃ q rest, s.mu.requests = q :: rest
        ∧ takeOldest s = carryOut q (s.modMu fun m => { m with requests := rest }) := by
  unfold takeOldest
  split
  · exact .inl ⟨‹_›, rfl⟩
  · exact .inr ⟨_, _, ‹_›, rfl⟩

end Sys2Proof.Machine
end

