-- ==== Sys2Proof/Laws/Samples.lean ====
section
/-! SUPPORT. Bounds of the filter and of the control law, and both on natural numbers. -/

namespace Sys2Proof.Machine

/-- With a weight of at most 16 the filter moves toward the sample and not past it (R56). -/
theorem filterStep_between {f m w : Nat} (h : w ≤ 16) :
    min f m ≤ filterStep f m w ∧ filterStep f m w ≤ max f m := by
  have le : ∀ d, (d * w + 8) / 16 ≤ d := by
    intro d
    have : d * w ≤ d * 16 := Nat.mul_le_mul_left d h
    omega
  unfold filterStep
  split
  · have := le (m - f); omega
  · have := le (f - m); omega

/-- The weight of a usable sample is at most 16 where the profile's filter weight is (R55). -/
theorem weight_le (q : Quality) {k : Nat} (h : k ≤ 16) : q.weight k ≤ 16 := by
  cases q <;> simp only [Quality.weight] <;> omega

/-- The clamp of the control law. -/
theorem clampTo_le (c : Nat) (v : Int) : clampTo c v ≤ c := by
  simp [clampTo]

/-- One run of the law leaves integrator and demand within the ceiling (R63, R64), and only them and the
setpoint changed. -/
theorem control_spec (u : Hcu) (p : Params) (tsp tf c : Nat) :
    (u.control p tsp tf c).integrator ≤ c ∧ (u.control p tsp tf c).demand ≤ c
      ∧ (u.control p tsp tf c).setpoint = tsp ∧ (u.control p tsp tf c).filtered = u.filtered
      ∧ (u.control p tsp tf c).seqRef = u.seqRef
      ∧ (u.control p tsp tf c).lastSample = u.lastSample
      ∧ (u.control p tsp tf c).prevTime = u.prevTime :=
  ⟨clampTo_le _ _, clampTo_le _ _, rfl, rfl, rfl, rfl, rfl⟩

/-- The setpoint of a RAMP is at most its target (R61). -/
theorem rampSetpoint_le (target rate origin elapsed : Nat) :
    rampSetpoint target rate origin elapsed ≤ target := by
  unfold rampSetpoint
  split <;> omega

/-! ### The law and the filter as the statements say them -/

/-- A term of the law, truncated toward zero, in natural numbers (R62, R63). -/
theorem tdiv_error (a sp tf n : Nat) :
    Int.tdiv ((a : Int) * ((sp : Int) - tf)) n =
      if tf ≤ sp then ((a * (sp - tf) / n : Nat) : Int) else -((a * (tf - sp) / n : Nat) : Int) := by
  split
  · next h =>
    have e : (sp : Int) - tf = ((sp - tf : Nat) : Int) := by omega
    rw [e, ← Int.natCast_mul]; rfl
  · next h =>
    have e : (sp : Int) - tf = -((tf - sp : Nat) : Int) := by omega
    rw [e, Int.mul_neg, Int.neg_tdiv, ← Int.natCast_mul]; rfl

/-- The clamp of a sum of naturals. -/
theorem clampTo_add (c i k : Nat) : clampTo c ((k : Int) + i) = min (k + i) c := by
  unfold clampTo; omega

/-- The clamp of a difference of naturals. -/
theorem clampTo_sub (c i k : Nat) : clampTo c (-(k : Int) + i) = min (i - k) c := by
  unfold clampTo; omega

/-- The freezing of the integrator, on natural numbers (R63). -/
theorem frozen_iff (d c sp tf : Nat) :
    frozen d c ((sp : Int) - tf) = true ↔ (d = c ∧ tf < sp) ∨ (d = 0 ∧ sp < tf) := by
  simp only [frozen, Bool.or_eq_true, Bool.and_eq_true, beq_iff_eq, decide_eq_true_eq]
  omega

/-- The law on integers is the law on natural numbers (R62-R64). -/
theorem control_eq_controlled (u : Hcu) (p : Params) (sp tf c : Nat) :
    u.control p sp tf c = u.controlled p sp tf c := by
  have i : integratorAfter p.ki u.integrator u.demand c ((sp : Int) - tf) =
      (u.controlled p sp tf c).integrator := by
    have t := tdiv_error p.ki sp tf 256
    simp only [integratorAfter, Hcu.controlled, frozen_iff]
    split
    · simp [clampTo]
    · rw [show ((256 : Int)) = ((256 : Nat) : Int) from rfl, t]
      split
      · rw [Int.add_comm, clampTo_add, Nat.add_comm]
      · rw [Int.add_comm, clampTo_sub]
  have t := tdiv_error p.kp sp tf 16
  simp only [Hcu.control, i, proportional]
  rw [show ((16 : Int)) = ((16 : Nat) : Int) from rfl, t]
  unfold Hcu.controlled
  congr 1
  split
  · rw [clampTo_add]
  · rw [clampTo_sub]

/-- The filtered temperature after a sample, by the Heat Control Unit's own steps (R55, R56). -/
theorem tempAfter_eq (x : Head) (p : Params) (m : Sample) :
    x.tempAfter p m = if m.quality.usable then
        filterUpdate x.hcu.filtered m.temp (m.quality.weight p.weight) else x.hcu.filtered := by
  cases q : m.quality <;> cases f : x.hcu.filtered <;>
    simp [Head.tempAfter, q, f, Quality.usable, filterUpdate, Quality.weight, filterStep]

end Sys2Proof.Machine
end

