-- ==== Sys2Proof/Laws/Slots.lean ====
section
/-! SUPPORT. What the resolution, the selection and the transmit queues can do at a slot expiry. -/

namespace Sys2Proof.Machine

/-! ### Resolution (R98-R101) -/

/-- A resolution does nothing, grants a candidate into an empty place, or preempts in FIXED mode. -/
theorem resolveRescue_cases (g : GenId) (s : State) :
    resolveRescue g s = s
      ∨ (∃ w, s.candidate g w = true ∧ (s.gen g).inService = none
          ∧ resolveRescue g s = grantRescue g w s)
      ∨ ∃ k w, s.candidate g w = true ∧ (s.gen g).inService = some k
          ∧ (s.head w).cfg.priority < (s.head k).cfg.priority
          ∧ resolveRescue g s = preempt g k w s := by
  have fixed : ∀ w, s.winnerFixed g = some w → s.candidate g w = true := by
    intro w e
    have inv : ∀ (l : List HeadId) (b : Option HeadId), (∀ x ∈ l, s.candidate g x = true) →
        (∀ x, b = some x → s.candidate g x = true) →
        ∀ x, l.foldl (betterFixed s) b = some x → s.candidate g x = true := by
      intro l
      induction l with
      | nil => intro b _ hb x hx; exact hb x hx
      | cons a l ih =>
        intro b hl hb x hx
        refine ih _ (fun y hy => hl y (List.mem_cons_of_mem _ hy)) ?_ x hx
        intro y hy
        have ha := hl a List.mem_cons_self
        cases b with
        | none => simp only [betterFixed, Option.some.injEq] at hy; exact hy ▸ ha
        | some c =>
          simp only [betterFixed] at hy
          split at hy <;> (simp only [Option.some.injEq] at hy; subst hy)
          · exact ha
          · exact hb _ rfl
    exact inv _ none (fun x hx => (List.mem_filter.1 hx).2) (fun x hx => nomatch hx) w e
  have rot : ∀ w, s.winnerRotating g = some w → s.candidate g w = true :=
    fun w e => List.find?_some e
  unfold resolveRescue
  split
  · split
    · exact .inl rfl
    · rename_i w e n
      exact .inr (.inl ⟨w, fixed w e, n, rfl⟩)
    · rename_i w k e n
      split
      · rename_i lt
        exact .inr (.inr ⟨k, w, fixed w e, n, lt, rfl⟩)
      · exact .inl rfl
  · split
    · rename_i w e n
      exact .inr (.inl ⟨w, rot w e, n, rfl⟩)
    · exact .inl rfl

/-! ### Selection (R82-R85) -/

/-- A selected head is eligible. -/
theorem select_eligible {s : State} {g : GenId} {other : Option HeadId} {h : HeadId} {k : SlotKind}
    (e : s.select g other = some (h, k)) : s.eligible g other h = true := by
  have borrow : ∀ h k, (s.borrower g other).map (fun h => (h, SlotKind.borrowed)) = some (h, k) →
      s.eligible g other h = true := by
    intro h k e
    obtain ⟨x, hx, e⟩ := Option.map_eq_some_iff.1 e
    obtain ⟨rfl, -⟩ := Prod.mk.inj e
    unfold State.borrower at hx
    split at hx
    · exact nomatch hx
    · exact List.find?_some hx
  have phase : ∀ h k, s.servePhase g other = some (h, k) → s.eligible g other h = true := by
    intro h k e
    unfold State.servePhase at e
    split at e
    · split at e
      · rename_i el
        obtain ⟨rfl, -⟩ := Prod.mk.inj (Option.some.inj e)
        exact el
      · exact borrow _ _ e
    · exact borrow _ _ e
  unfold State.select at e
  split at e
  · split at e
    · rename_i r _ t
      obtain ⟨rfl, -⟩ := Prod.mk.inj (Option.some.inj e)
      simp only [State.rescueTakes, Bool.and_eq_true] at t
      exact t.1
    · exact phase _ _ e
  · exact phase _ _ e

/-- What an eligible head is (R82). -/
theorem eligible_iff (s : State) (g : GenId) (other : Option HeadId) (h : HeadId) :
    s.eligible g other h = true ↔
      (s.head h).cfg.binding = some g ∧ (s.head h).ctx.state = .running
        ∧ (∃ seg, s.segment h = some seg ∧ seg.heats = true) ∧ 1 ≤ (s.head h).hcu.demand
        ∧ 1 ≤ (s.head h).cfg.powerLimit ∧ s.verdict h = true ∧ s.latched h = false
        ∧ (s.gen g).state = .ready ∧ 1 ≤ (s.gen g).budget
        ∧ ∀ k, other = some k → s.paired k h = false := by
  have seg : (match s.segment h with
      | some seg => seg.heats
      | none => false) = true ↔ ∃ seg, s.segment h = some seg ∧ seg.heats = true := by
    cases s.segment h <;> simp
  have oth : (match other with
      | some k => !s.paired k h
      | none => true) = true ↔ ∀ k, other = some k → s.paired k h = false := by
    cases other <;> simp
  simp only [State.eligible, Bool.and_eq_true, decide_eq_true_eq, beq_iff_eq, State.interlocksOk,
    Bool.not_eq_true']
  constructor
  · rintro ⟨⟨⟨⟨⟨⟨⟨⟨b, r⟩, sg⟩, d⟩, p⟩, v, l⟩, rd⟩, bu⟩, o⟩
    exact ⟨b, r, seg.1 sg, d, p, v, l, rd, bu, oth.1 o⟩
  · rintro ⟨b, r, sg, d, p, v, l, rd, bu, o⟩
    exact ⟨⟨⟨⟨⟨⟨⟨⟨b, r⟩, seg.2 sg⟩, d⟩, p⟩, v, l⟩, rd⟩, bu⟩, oth.2 o⟩

/-- The drive history keeps its last four entries (R91). -/
theorem appendHistory_length (l : List DriveEntry) (e : DriveEntry) :
    (appendHistory l e).length ≤ 4 := by
  simp only [appendHistory, List.length_drop, List.length_append, List.length_singleton]
  omega

/-! ### The transmit queues (R92, R183-R185) -/

/-- A placed notice changes the notice queue, the port or a counter, and nothing else. -/
theorem placeNotice_frame (rp : RingPort) (f : TxFrame) :
    (rp.placeNotice f).station = rp.station ∧ (rp.placeNotice f).skipFrame = rp.skipFrame
      ∧ (rp.placeNotice f).drive = rp.drive ∧ (rp.placeNotice f).forward = rp.forward
      ∧ (rp.placeNotice f).replies = rp.replies := by
  unfold RingPort.placeNotice
  split
  · simp [RingPort.count]
  · split <;> simp

/-- A placed reply changes the reply queue or the port, and nothing else. -/
theorem placeReply_frame (rp : RingPort) (f : TxFrame) :
    (rp.placeReply f).station = rp.station ∧ (rp.placeReply f).skipFrame = rp.skipFrame
      ∧ (rp.placeReply f).drive = rp.drive ∧ (rp.placeReply f).forward = rp.forward
      ∧ (rp.placeReply f).notices = rp.notices ∧ (rp.placeReply f).counters = rp.counters := by
  unfold RingPort.placeReply
  split <;> simp

end Sys2Proof.Machine
end

