-- ==== Sys2Proof/Tests/Slice0.lean ====
section
/-! SUPPORT. Small tests: ill-formed commands, the worked examples of spec/ one event at a time, and for each
statement a state and operands that meet its hypotheses. -/

namespace Sys2Proof.Tests

open Sys2Proof Sys2Proof.Machine

set_option Elab.async false

/-! ### The states the tests start from -/

/-- A request from station 1 with ENGINEER authority while ENG_EN is high. -/
def engineer : ReqHead := ⟨1, 7, 1, true⟩

/-- The same with ENG_EN low. -/
def operator : ReqHead := ⟨1, 7, 1, false⟩

/-- An input that is SATISFIED. -/
def closed : Input := ⟨some true, true, false⟩

/-- The contents of P5 at revision 1 (chapter 1, worked example, after its clamp). -/
def copperBend : Recipe where
  params := ⟨7300, 8400, 8, 48, 16, 150, 50⟩
  segments := [.ramp 7600 3000 100 4000 2500, .soak 7750 2500 900, .cool 5000 6000]
  criteria := ⟨some 7500, some 8100, some 1800, none, none, none, some 2, true⟩

/-- A head bound to A with its interlocks satisfied. -/
def armed : Head :=
  { Head.powerOn with cfg := { HeadConfig.powerOn with binding := some .a },
                      inputs := ⟨closed, closed, closed⟩ }

/-- The part on the ring of chapter 10: generator A on station 5 with rating 2500, B on 6, P5 stored, H3
armed, COLD acknowledged; generator A in state `st`. -/
def cell (st : GenState) : State :=
  { State.reset with
      mu := { State.reset.mu with
        cold := false,
        config := { PartConfig.powerOn with
          concentrator := 2, ioStation := 3, stationA := 5, stationB := 6, ratingA := 2500,
          ratingB := 2500 } },
      profiles := State.reset.profiles.set 5 ⟨some copperBend, false, 1⟩,
      heads := State.reset.heads.set 3 armed,
      gens :=
        { a := { Generator.powerOn with
            state := st,
            wakeTimer := if st = .waking then some 300 else none,
            statusTimer := if st = .ready then some 15 else none,
            idleTimer := if st = .ready then some 2000 else none,
            cause := if st = .faulted then .wakeTimeout else .none },
          b := { Generator.powerOn with state := .standby } } }

/-- The same with H3 holding a joint of P5 in state `hs` and segment `k`, A READY with budget 1250. -/
def joint (hs : HeadState) (k : Nat) : State :=
  let s := (cell .ready).modGen .a fun x =>
    { x with idleTimer := none, bus := some 500, budget := 1250 }
  s.modHead 3 fun x =>
    { x with
        ctx := { x.ctx with
          state := hs, serial := 40117, profile := some 5, revision := 1, segIndex := k,
          reservation := true, rampOrigin := some 2500,
          segTimer := if hs = .running then some 100 else none,
          sampleTimer := if hs = .running then some 15 else none,
          windowTimer := if hs = .suspended then some 5000 else none,
          suspendRec := if hs = .suspended then some
            { cause := .manual, segIndex := k, elapsed := 40, rampOrigin := some 2500,
              setpoint := 7000, filtered := some 5900, integrator := 300, energy := 0,
              timeAboveFlow := 0, peak := 5900, rescueCount := 0, inRescue := false,
              derated := false, time := 0 } else none },
        hcu := { x.hcu with
          filtered := some 5900, integrator := 300, demand := if hs = .running then 700 else 0,
          seqRef := some 40, setpoint := 6085, prevTime := some 0 } }

/-- What a command leaves. -/
def after (c : Instr) (s : State) : State :=
  match exec c s with
  | .next t => t
  | _ => s

/-! ### Ill-formed commands -/

theorem test_wellFormed_accepts : (Instr.readStatus engineer 0).wellFormed = true := by decide +kernel

theorem test_source_is_a_station :
    (Instr.readStatus { engineer with source := 64 } 0).wellFormed = false := by decide +kernel

theorem test_clearFaults_too_long :
    (Instr.clearFaults engineer 3 (List.replicate 243 0)).wellFormed = false := by decide +kernel

theorem test_writePhases_too_long :
    (Instr.writePhases engineer 0 0 (List.replicate 241 0) 32).wellFormed = false := by decide +kernel

theorem test_writeExclusions_too_long :
    (Instr.writeExclusions engineer (List.replicate 122 (0, 1))).wellFormed = false := by decide +kernel

theorem test_writeFaultPolicy_too_long :
    (Instr.writeFaultPolicy engineer (List.replicate 123 (0, 1))).wellFormed = false := by decide +kernel

theorem test_unknownCommand_not_in_table :
    (Instr.unknownCommand engineer 24 []).wellFormed = false := by decide +kernel

theorem test_unknownCommand_too_long :
    (Instr.unknownCommand engineer 77 (List.replicate 245 0)).wellFormed = false := by decide +kernel

/-- The request of P5 (chapter 1, worked example, step 1), before the clamp. -/
def writeP5 : ProfileArg where
  profile := 5
  expected := none
  flowTemp := 7300
  maxTemp := 8400
  weight := 8
  kp := 48
  ki := 16
  deficitBand := 150
  recoverBand := 50
  segCount := 3
  segments := [.ramp 7600 3000 100 4000 2600, .soak 7750 2500 900, .cool 5000 6000]
  criteria := ⟨some 7500, some 8100, some 1800, none, none, none, some 2, true⟩

theorem test_writeProfile_wellFormed : (Instr.writeProfile engineer writeP5).wellFormed = true := by
  decide +kernel

theorem test_writeProfile_count :
    (Instr.writeProfile engineer { writeP5 with segCount := 2 }).wellFormed = false := by decide +kernel

theorem test_writeProfile_kind :
    (Instr.writeProfile engineer { writeP5 with segCount := 1, segments := [.other 3] }).wellFormed
      = false := by decide +kernel

theorem test_writeProfile_too_long :
    (Instr.writeProfile engineer
      { writeP5 with segCount := 49, segments := List.replicate 49 (.cool 0 0) }).wellFormed
      = false := by decide +kernel

/-! ### Profiles (chapter 1, worked example) -/

theorem test_writeProfile_clamps_and_counts :
    ((after (.writeProfile engineer writeP5) State.reset).profile 5) = ⟨some copperBend, false, 1⟩ := by
  decide +kernel

theorem test_writeProfile_locked :
    let s := (cell .ready).modProfile 5 fun x => { x with locked := true }
    after (.writeProfile engineer { writeP5 with expected := some 1 }) s =
      s.answered engineer 32 .locked [] := by decide +kernel

theorem test_eraseProfile_counts :
    ((after (.eraseProfile engineer 5 (some 1)) (cell .ready)).profile 5) = ⟨none, false, 2⟩ := by
  decide +kernel

theorem test_lockProfile_while_in_use :
    ((after (.lockProfile engineer 5 none) (joint .running 0)).profile 5).locked = true := by decide +kernel

theorem test_unlockProfile_in_use :
    after (.unlockProfile engineer 5 none) (joint .running 0) =
      (joint .running 0).answered engineer 35 .inUse [] := by decide +kernel

theorem test_readProfile_empty :
    after (.readProfile engineer 6) (cell .ready) =
      (cell .ready).answered engineer 4 .ok [0, 0, 0, 0] := by decide +kernel


/-- Chapter 1, step 9: BAD_ARGUMENT is reported before STALE. -/
theorem test_writeProfile_recover_band :
    after (.writeProfile engineer { writeP5 with expected := some 0, recoverBand := 200 }) (cell .ready) =
      (cell .ready).answered engineer 32 .badArgument [] := by decide +kernel

/-- Chapter 1, step 12. -/
theorem test_eraseProfile_answers_revision :
    after (.eraseProfile engineer 5 none) (cell .ready) =
      ((cell .ready).modProfile 5 fun _ => ⟨none, false, 2⟩).answered engineer 33 .ok [2, 0] := by
  decide +kernel

/-! ### Joints (chapter 2, worked example) -/

theorem test_start_wakes_generator :
    let t := after (.start operator 3 5 40117) (cell .standby)
    (t.head 3).ctx.state = .waitGen ∧ (t.gen .a).state = .waking ∧ (t.gen .a).wakeTimer = some 300
      ∧ t.reservations = 1 := by decide +kernel

theorem test_start_runs_on_ready_generator :
    let t := after (.start operator 3 5 40117) (cell .ready)
    (t.head 3).ctx.state = .running ∧ (t.head 3).ctx.segTimer = some 4000
      ∧ (t.head 3).ctx.sampleTimer = some 15 ∧ (t.gen .a).idleTimer = none := by decide +kernel

/-- A GENSTAT of generator A from its station 5, echoing `slot` and `head`. -/
def genstat (s : State) (st : Byte) (v power : Word16) (slot head : Byte) : State :=
  after (.frameArrival (s.genstatFrame 5 0 st v power slot head) false) s

/-- A SAMPLE for H3 from the concentrator. -/
def sample (s : State) (seq : Byte) (tm : Word16) (q : Byte) : State :=
  after (.frameArrival (s.sampleFrame 2 3 seq tm 1840 q 0) false) s

/-- Time 1180 of the example. -/
theorem test_ready_report_runs_waiting_head :
    let t := genstat (after (.start operator 3 5 40117) (cell .standby)) 2 545 0 0 255
    (t.gen .a).state = .ready ∧ (t.head 3).ctx.state = .running ∧ (t.head 3).ctx.segTimer = some 4000
      ∧ (t.head 3).ctx.sampleTimer = some 15 := by decide +kernel

/-- Time 3700: the RAMP exits into the SOAK. -/
theorem test_ramp_exits_into_soak :
    let s := (joint .running 0).modHcu 3 fun u => { u with filtered := some 7520 }
    let t := sample s 41 7540 0
    (t.head 3).hcu.filtered = some 7530 ∧ (t.head 3).ctx.segIndex = 1
      ∧ (t.head 3).ctx.segTimer = some 2500 ∧ (t.head 3).ctx.segsDone = 1 := by decide +kernel

/-- Time 6200: the SOAK's duration expires. -/
theorem test_soak_expiry_enters_cool :
    let s := (joint .running 1).modCtx 3 fun c => { c with segTimer := some 0 }
    let t := after (.segmentTimerExpiry 3) s
    (t.head 3).ctx.segIndex = 2 ∧ (t.head 3).ctx.segTimer = some 6000 ∧ (t.head 3).hcu.demand = 0 := by
  decide +kernel

/-- H3 at the expiry of a COOL that a RAMP follows, its group latched since. -/
def reheating : State :=
  let rc := { copperBend with segments := [.cool 5000 6000, .ramp 7600 3000 100 4000 2500] }
  let s := (joint .running 0).modProfile 5 fun x => { x with recipe := some rc }
  (s.modCtx 3 fun c => { c with segTimer := some 0 }).modGroup 0 fun x => { x with latch := true }

/-- R135: the head faults at the moment it would need power. -/
theorem test_reheat_meets_the_latch :
    let t := after (.segmentTimerExpiry 3) reheating
    (t.head 3).ctx.state = .faulted ∧ (t.head 3).fr.status = [.coolantLost]
      ∧ (t.head 3).ctx.segIndex = 1 ∧ t.results.map ResultRecord.coolTimeout = [true] := by
  decide +kernel

theorem test_segmentTimer_not_due :
    after (.segmentTimerExpiry 3) (joint .running 1) = joint .running 1 := by decide +kernel

/-- Time 9850: the COOL exits by sample and the joint is judged; chapter 9 gives the figures. -/
theorem test_cool_exit_accepts :
    let s := (joint .running 2).modHead 3 fun x =>
      { x with ctx := { x.ctx with peak := 7792, timeAboveFlow := 3140, energy := 1934587 },
               hcu := { x.hcu with filtered := some 5000 } }
    let t := sample s 41 4980 0
    (t.head 3).ctx.state = .idle ∧ t.results.map ResultRecord.outcome = [.accept]
      ∧ t.results.map ResultRecord.joules = [19345] ∧ (t.gen .a).idleTimer = some 2000 := by
  decide +kernel

/-- Chapter 9: H7's three failed criteria, in order. -/
theorem test_three_criteria_fail :
    let s := (joint .running 2).modHead 3 fun x =>
      { x with ctx := { x.ctx with
          peak := 7688, timeAboveFlow := 1795, energy := 2011260, rescueCount := 3,
          earlyRelease := true, segTimer := some 0 } }
    (after (.segmentTimerExpiry 3) s).results.map (fun q => (q.outcome, q.failed)) =
      [(.reject, some [.minFlow, .maxRescues, .fullCool])] := by decide +kernel

/-- The RAMP's limit expires: SEGMENT_OVERTIME under the power-on severity SUSPEND. -/
theorem test_ramp_limit_suspends :
    let s := (joint .running 0).modCtx 3 fun c => { c with segTimer := some 0 }
    let t := after (.segmentTimerExpiry 3) s
    (t.head 3).ctx.state = .suspended ∧ (t.head 3).fr.pointer = some .segmentOvertime
      ∧ (t.head 3).ctx.windowTimer = some 5000 := by decide +kernel

theorem test_abort_ends_joint :
    let t := after (.abort operator 3) (joint .suspended 1)
    (t.head 3).ctx.state = .idle ∧ t.results.map ResultRecord.outcome = [.aborted]
      ∧ t.reservations = 0 := by decide +kernel

theorem test_abort_without_joint :
    after (.abort operator 3) (cell .ready) = (cell .ready).answered operator 17 .badState [] := by
  decide +kernel

theorem test_suspendHead :
    let t := after (.suspendHead operator 3) (joint .running 0)
    (t.head 3).ctx.state = .suspended ∧ (t.head 3).ctx.windowTimer = some 5000
      ∧ (t.head 3).hcu.demand = 0 ∧ (t.gen .a).idleTimer = none := by decide +kernel

/-- Chapter 8, time 6500: with continue the duration runs on. -/
theorem test_resumeHead_continue :
    let s := (joint .suspended 1).modCtx 3 fun c =>
      { c with suspendRec := c.suspendRec.map fun q => { q with elapsed := 1200 } }
    let t := after (.resumeHead operator 3 1 true) { s with timebase := 6500 }
    (t.head 3).ctx.state = .running ∧ (t.head 3).ctx.segStart = 5300
      ∧ (t.head 3).ctx.segTimer = some 1300 ∧ (t.head 3).ctx.resumed = true := by decide +kernel

/-- Chapter 8, time 6400: the cause of the suspension is still in the status. -/
theorem test_resumeHead_cause_present :
    let s := (joint .suspended 1).modHead 3 fun x =>
      { x with fr := { x.fr with status := [.sensorLost] },
               ctx := { x.ctx with suspendRec := x.ctx.suspendRec.map fun q =>
                 { q with cause := .fault .sensorLost } } }
    after (.resumeHead operator 3 1 true) s = s.answered operator 19 .badState [] := by decide +kernel

/-! ### Faults (chapter 8, worked example) -/

/-- Time 6200: SENSOR_LOST suspends and is captured. -/
theorem test_sampleTimer_suspends :
    let s := (joint .running 1).modCtx 3 fun c => { c with sampleTimer := some 0, segStart := 5000 }
    let t := after (.sampleTimerExpiry 3) { s with timebase := 6200 }
    (t.head 3).ctx.state = .suspended ∧ (t.head 3).ctx.suspendedOnce = true
      ∧ (t.head 3).fr.capture.map Capture.elapsed = some 1200 ∧ t.faultN = true := by decide +kernel

/-- Time 7100: the flag is set, so the action is ESCALATED. -/
theorem test_sampleTimer_escalates :
    let s := (joint .running 1).modCtx 3 fun c =>
      { c with sampleTimer := some 0, suspendedOnce := true }
    let t := after (.sampleTimerExpiry 3) s
    (t.head 3).ctx.state = .faulted ∧ (t.head 3).fr.capture.map Capture.action = some .escalated
      ∧ t.results.map ResultRecord.kind = [some .sensorLost] ∧ t.faultN = false := by decide +kernel

/-- The resume window expires: SUSPEND_EXPIRED as ABORT. -/
theorem test_resumeWindow_expires :
    let s := (joint .suspended 1).modCtx 3 fun c => { c with windowTimer := some 0 }
    let t := after (.resumeWindowExpiry 3) s
    (t.head 3).ctx.state = .faulted ∧ (t.head 3).fr.status = [.suspendExpired] := by decide +kernel

/-- H3 FAULTED with these kinds in its status. -/
def faulted (ks : List FaultKind) : State :=
  (cell .ready).modHead 3 fun x =>
    { x with ctx := { x.ctx with state := .faulted },
             fr := { x.fr with status := ks } }

/-- Time 7300. -/
theorem test_clearFaults :
    ((after (.clearFaults operator 3 [0]) (faulted [.sensorLost])).head 3).fr = ⟨[], none, none⟩ := by
  decide +kernel

theorem test_clearFaults_no_kind :
    after (.clearFaults operator 3 [9]) (cell .ready) =
      (cell .ready).answered operator 21 .badArgument [] := by decide +kernel

/-- Time 7320. -/
theorem test_clearHead :
    ((after (.clearHead operator 3) (faulted [])).head 3).ctx.state = .idle := by decide +kernel

theorem test_clearHead_status_not_empty :
    after (.clearHead operator 3) (faulted [.overtemp]) =
      (faulted [.overtemp]).answered operator 20 .badState [] := by decide +kernel

theorem test_disableHead :
    ((after (.disableHead engineer 3) (cell .ready)).head 3).ctx.state = .disabled := by decide +kernel

theorem test_enableHead_not_disabled :
    after (.enableHead engineer 3) (cell .ready) =
      (cell .ready).answered engineer 43 .badState [] := by decide +kernel

/-! ### The control law (chapter 3, worked example, on H3) -/

/-- H3 in the RAMP of the example: ceiling 1500, ramp origin 2500, 1200 ms after the segment start. -/
def ramping : State :=
  { (joint .running 0).modProfile 5 fun x =>
      { x with recipe := x.recipe.map fun q =>
          { q with segments := [.ramp 7600 3000 100 4000 1500, .cool 5000 6000] } } with
    timebase := 1200 }

/-- Sample 41. -/
theorem test_sample_41 :
    let u := ((sample ramping 41 5980 0).head 3).hcu
    u.filtered = some 5940 ∧ u.setpoint = 6100 ∧ u.integrator = 310 ∧ u.demand = 790 := by
  decide +kernel

/-- Sample 42, WEAK. -/
theorem test_sample_42_weak :
    let s := sample { sample ramping 41 5980 0 with timebase := 1205 } 42 5950 1
    (s.head 3).hcu.filtered = some 5943 ∧ (s.head 3).hcu.integrator = 320
      ∧ (s.head 3).hcu.demand = 836 ∧ (s.head 3).deviations[Deviation.weak.idx] = 1 := by
  decide +kernel

/-- A gap is counted, and the sample is processed. -/
theorem test_sample_gap :
    let t := (sample ramping 42 5980 0).head 3
    t.deviations[Deviation.sequenceGap.idx] = 1 ∧ t.hcu.filtered = some 5940
      ∧ t.hcu.seqRef = some 42 := by decide +kernel

/-- A duplicate is counted and discarded. -/
theorem test_sample_duplicate :
    sample ramping 40 5980 0 = ramping.countDev 3 .duplicate := by decide +kernel

/-! ### The order of notices (R113, R122, R127, R129, R133) -/

/-- The notice kinds that a state's port and notice queue hold, in order. -/
def noticeKinds (s : State) : List (Option Byte) :=
  (s.rp.port.toList ++ s.rp.notices).map fun f => f.bytes[4]?

/-- `s` with station 1 as its notice station. -/
def told (s : State) : State :=
  { s with mu := { s.mu with config := { s.mu.config with noticeStation := 1 } } }

/-- A generator's FAULT: its GEN_STATE, then H3's HEAD_FAULT. -/
theorem test_generator_fault_notices_in_order :
    noticeKinds (genstat (told (joint .running 0)) 3 500 0 0 255) = [some 2, some 3] := by decide +kernel

/-- A generator's READY with H3's coolant latched: its HEAD_FAULT and JOINT_END, then the GEN_STATE. -/
theorem test_generator_ready_notices_in_order :
    let w := (told (joint .waitGen 0)).modGen .a fun x => { x with state := .waking }
    noticeKinds (genstat (w.modGroup 0 fun x => { x with latch := true }) 2 545 0 0 255) =
      [some 3, some 4, some 2] := by decide +kernel

/-- At an expiry with H3's joint RUNNING: G0's COOLANT_LATCH, H3's HEAD_FAULT and JOINT_END, then the COOLANT_LATCH
of G1, G2 and G3. The first is being sent. -/
theorem test_interlock_expiry_notices_in_order :
    let s := { told (joint .running 0) with
      interlocks := { (joint .running 0).interlocks with frameTimer := some 0 } }
    let t := after .interlockFrameTimerExpiry s
    noticeKinds t = [some 5, some 3, some 4, some 5, some 5, some 5]
      ∧ t.rp.notices.map (fun f => f.bytes[5]?) = [some 3, some 181, some 1, some 2, some 3] := by
  decide +kernel

/-! ### Rescue (chapters 3 and 5) -/

/-- H3 in its SOAK (target 7750, deficit band 150, recover band 50) at a filtered temperature. -/
def soaking (f : Nat) : State := (joint .running 1).modHcu 3 fun u => { u with filtered := some f }

/-- Below 7600 the request is raised; at 7600 it is not. -/
theorem test_soak_deficit :
    ((sample (soaking 7599) 41 0 2).head 3).rescueReq = true
      ∧ ((sample (soaking 7600) 41 0 2).head 3).rescueReq = false := by decide +kernel

/-- H3 in rescue service. -/
def inService (f : Nat) : State :=
  (soaking f).modGen .a fun x => { x with inService := some 3, limitTimer := some 0 }

/-- At 7700 the rescue ends; at 7699 it does not. -/
theorem test_soak_recovery :
    ((sample (inService 7700) 41 0 2).gen .a).inService = none
      ∧ ((sample (inService 7699) 41 0 2).gen .a).inService = some 3 := by decide +kernel

/-- The rescue limit's expiry ends the rescue and the joint (severity ABORT). -/
theorem test_rescueLimit_expires :
    let t := after (.rescueLimitExpiry .a) (inService 7588)
    (t.gen .a).inService = none ∧ (t.head 3).fr.status = [.soakDeficit]
      ∧ (t.head 3).ctx.state = .faulted := by decide +kernel

/-! ### Generators (chapter 6, worked example) -/

theorem test_budgets :
    let c := (cell .ready).mu.config
    c.budgetAt .a 530 = 2187 ∧ c.budgetAt .a 545 = 2500 ∧ c.budgetAt .a 500 = 1250
      ∧ c.budgetAt .a 470 = 312 ∧ c.budgetAt .a 455 = 0 := by decide +kernel

/-- Time 1203: 880 for 5 ms is 4400 centijoules. -/
theorem test_genstat_credits_energy :
    let s := (joint .running 0).modGen .a fun x => { x with history := [⟨40, 3, 40117, 900⟩] }
    let t := genstat s 2 500 880 40 3
    (t.head 3).ctx.energy = 4400 ∧ (t.gen .a).budget = 1250 := by decide +kernel

/-- The last report, FAULT, still credits the slot it echoes before the head's fault (R117). -/
theorem test_genstat_fault_credits_first :
    let s := (joint .running 0).modGen .a fun x => { x with history := [⟨40, 3, 40117, 900⟩] }
    let t := genstat s 3 500 880 40 3
    (t.head 3).ctx.energy = 4400 ∧ (t.gen .a).state = .faulted
      ∧ (t.head 3).ctx.suspendRec.map SuspendRecord.energy = some 4400 := by decide +kernel

/-- An echo of no entry is counted. -/
theorem test_genstat_mismatch :
    ((genstat (joint .running 0) 2 500 880 38 3).head 3).deviations[Deviation.energyMismatch.idx] = 1 := by
  decide +kernel

/-- Time 1220: the last report is FAULT. -/
theorem test_clearGenerator_while_reported :
    let s := (cell .faulted).modGen .a fun x => { x with reported := some .fault }
    after (.clearGenerator operator 0) s = s.answered operator 23 .badState [] := by decide +kernel

/-- Time 1225. -/
theorem test_clearGenerator :
    let t := after (.clearGenerator operator 0) (cell .faulted)
    (t.gen .a).state = .standby ∧ (t.gen .a).cause = .wakeTimeout ∧ t.faultN = true := by
  decide +kernel

theorem test_wakeTimer_expires :
    let s := (cell .waking).modGen .a fun x => { x with wakeTimer := some 0 }
    let t := after (.wakeTimerExpiry .a) s
    (t.gen .a).state = .faulted ∧ (t.gen .a).cause = .wakeTimeout ∧ t.faultN = false := by
  decide +kernel

theorem test_statusTimer_expires :
    let s := (joint .running 0).modGen .a fun x => { x with statusTimer := some 0 }
    let t := after (.statusTimerExpiry .a) s
    (t.gen .a).cause = .statusLost ∧ (t.head 3).fr.status = [.generatorFault] := by decide +kernel

theorem test_idleTimer_expires :
    let s := (cell .ready).modGen .a fun x => { x with idleTimer := some 0 }
    ((after (.idleTimerExpiry .a) s).gen .a).state = .standby := by decide +kernel

/-! ### Slots and phase tables (chapter 4, worked examples) -/

/-- A phase table of these entries. -/
def table (hs : List HeadId) : PhaseTable :=
  { entries := Vector.ofFn fun i => hs[i.val]?, length := hs.length }

/-- The first example at the expiry before `slot`: A's round is H0 H1 H3 H2 at `pointer`; the heads stand
in the RAMP or SOAK of P5 with these demands. -/
def round (slot : Byte) (pointer : Nat) (demands : List (HeadId × Nat × Nat)) : State :=
  let s := cell .ready
  let s := { s with slots := { s.slots with number := slot - 1, timer := 0 } }
  let s := s.modGen .a fun x =>
    { x with bus := some 545, budget := 2500, active := table [0, 1, 3, 2], pointer := some pointer }
  demands.foldl (fun s d =>
    (s.modHead d.1 fun _ => armed).modHead d.1 fun x =>
      { x with ctx := { x.ctx with state := .running, profile := some 5, segIndex := d.2.1 },
               hcu := { x.hcu with demand := d.2.2 } }) s

/-- What generator A's drive history gains at a slot expiry: head and setpoint. -/
def driven (s : State) : List (HeadId × Nat) :=
  ((after .slotExpiry s).gen .a).history.map fun x => (x.head, x.setpoint)

/-- Slot 100: H0 in its phase slot. -/
theorem test_slot_phase : driven (round 100 3 [(0, 0, 1400), (1, 0, 1100)]) = [(0, 1400)] := by
  decide +kernel

/-- The scan after a phase entry that is not eligible borrows for the next one. -/
theorem test_slot_borrowed :
    let s := round 102 1 [(0, 0, 1400), (1, 0, 1100)]
    driven s = [(0, 1400)]
      ∧ ((after .slotExpiry s).head 0).deviations[Deviation.borrowed.idx] = 1 := by decide +kernel

/-- Slot 102: the rescue head takes the slot in the place of the phase entry. -/
theorem test_slot_rescue :
    let s := (round 102 3 [(0, 0, 1400), (2, 1, 900)]).modHead 2 fun x => { x with rescueReq := true }
    driven s = [(2, 900)] ∧ ((after .slotExpiry s).gen .a).inService = some 2
      ∧ ((after .slotExpiry s).head 2).ctx.rescueCount = 1 := by decide +kernel

/-- The first example with H1 on generator B, READY with budget 900, and its one entry H1. -/
def twoGenerators (pairs : List (HeadId × HeadId)) : State :=
  let s := (round 100 3 [(0, 0, 1400), (1, 0, 1100)]).modGen .b fun x =>
    { x with state := .ready, bus := some 545, budget := 900, statusTimer := some 15,
             active := table [1], pointer := some 0 }
  let s := s.modHead 1 fun x => { x with cfg := { x.cfg with binding := some .b } }
  { s with slots := { s.slots with exclusions := pairs } }

/-- R87: B feeds H1 beside A's H0, and does not where the two form an exclusion pair. -/
theorem test_exclusion_bars_b :
    let fed := fun s => ((after .slotExpiry s).gen .b).history.map fun x => (x.head, x.setpoint)
    fed (twoGenerators []) = [(1, 900)] ∧ fed (twoGenerators [(1, 0)]) = []
      ∧ driven (twoGenerators [(1, 0)]) = [(0, 1400)] := by decide +kernel

/-- Slot 42 of chapter 6: the budget alone sets the setpoint, so H0 is derated. -/
theorem test_slot_derated :
    let s := (round 42 3 [(0, 0, 980)]).modGen .a fun x => { x with budget := 312 }
    driven s = [(0, 312)] ∧ ((after .slotExpiry s).head 0).ctx.derated = true := by decide +kernel

/-- Slot 108: the pointer wraps to 0 and the pending load completes. -/
theorem test_load_completes_at_wrap :
    let s := (round 108 3 []).modGen .a fun x =>
      { x with staged := table [0, 2, 1, 2, 3], stagedDiffers := true, loadPending := true }
    let x := (after .slotExpiry s).gen .a
    x.active = table [0, 2, 1, 2, 3] ∧ x.pointer = some 0 ∧ x.loadPending = false := by
  decide +kernel

/-- The second WRITE PHASES of the example: index 3 alone is replaced. -/
theorem test_writePhases :
    let s := (cell .ready).modGen .a fun x => { x with staged := table [0, 2, 1, 9, 3] }
    ((after (.writePhases engineer 0 3 [2] 5) s).gen .a).staged = table [0, 2, 1, 2, 3] := by
  decide +kernel

theorem test_writePhases_busy :
    let s := (cell .ready).modGen .a fun x => { x with loadPending := true }
    after (.writePhases engineer 0 4 [255] 5) s = s.answered engineer 36 .busy [] := by decide +kernel

/-- The first LOAD PHASES of the example: an entry of a head bound elsewhere. -/
theorem test_loadPhases_bad_table :
    let s := (cell .ready).modGen .a fun x => { x with staged := table [3, 9] }
    after (.loadPhases engineer 0) s = s.answered engineer 37 .badTable [] := by decide +kernel

theorem test_loadPhases :
    let s := (cell .ready).modGen .a fun x => { x with staged := table [3, 3] }
    ((after (.loadPhases engineer 0) s).gen .a).loadPending = true := by decide +kernel

theorem test_writeExclusions_same_pair_once :
    (after (.writeExclusions engineer [(1, 9), (9, 1)]) (cell .ready)).slots.exclusions.length = 1 := by
  decide +kernel

theorem test_writeExclusions_one_head :
    after (.writeExclusions engineer [(4, 4)]) (cell .ready) =
      (cell .ready).answered engineer 39 .badArgument [] := by decide +kernel

/-! ### Interlocks (chapter 7, worked example) -/

/-- An INTERLOCK frame in which every head input is on and these groups have flow. -/
def interlock (s : State) (flow : Byte) : State :=
  after (.frameArrival
    (mkFrame s.ownStation 3 3 (List.replicate 6 255 ++ [flow])) false) s

/-- Time 100: flow off faults the running head of the group. -/
theorem test_coolant_loss :
    let t := interlock (joint .running 0) 14
    (t.group 0).latch = true ∧ (t.group 1).latch = false
      ∧ (t.head 3).fr.status = [.coolantLost] ∧ (t.head 3).ctx.state = .faulted := by decide +kernel

/-- R134: in a COOL the head is released early, once; SUSPENDED it keeps its joint with COOLANT_LOST recorded. -/
theorem test_coolant_loss_in_cool_and_suspended :
    let t := interlock (joint .running 2) 14
    let u := interlock (joint .suspended 1) 14
    ((t.head 3).ctx.state = .running ∧ (t.head 3).ctx.earlyRelease = true
      ∧ (t.head 3).deviations[Deviation.earlyRelease.idx] = 1 ∧ (t.head 3).fr.status = [])
      ∧ (u.head 3).ctx.state = .suspended ∧ (u.head 3).fr.status = [.coolantLost]
      ∧ u.results = [] := by decide +kernel

/-- Times 110 and 120: the first frame with flow sets the mark, the second makes it SATISFIED. -/
theorem test_debounce :
    let s := interlock State.reset 15
    (s.group 1).flow = ⟨some true, false, true⟩
      ∧ ((interlock s 15).group 1).flow = ⟨some true, true, false⟩ := by decide +kernel

/-- Time 112: the coolant is not yet SATISFIED. -/
theorem test_clearCoolantLatch_refused :
    after (.clearCoolantLatch operator 1) (cell .ready) =
      (cell .ready).answered operator 22 .interlock [] := by decide +kernel

/-- Time 132. -/
theorem test_clearCoolantLatch :
    let s := (cell .ready).modGroup 1 fun _ => ⟨closed, true⟩
    ((after (.clearCoolantLatch operator 1) s).group 1).latch = false := by decide +kernel

/-- Time 160. -/
theorem test_interlockFrameTimer_expires :
    let s := cell .ready
    let t := after .interlockFrameTimerExpiry
      { s with interlocks := { s.interlocks with frameTimer := some 0 } }
    t.interlocks.timeouts = 1 ∧ (t.group 3).latch = true ∧ t.verdict 3 = false := by decide +kernel

/-! ### The ring (chapter 10, worked example) -/

/-- A frame with another station's destination is forwarded; a free port begins it at once. -/
theorem test_frame_forwarded :
    ((after (.frameArrival (mkFrame 5 1 12 []) false) (cell .ready)).rp.port).map TxFrame.bytes =
      some (mkFrame 5 1 12 []) := by decide +kernel

/-- S2, N0 and X1: counted and removed. -/
theorem test_frames_removed :
    let s := cell .ready
    after (.frameArrival (mkFrame 4 7 1 (List.replicate 8 0)) false) s = s.countPort .foreignSource
      ∧ after (.frameArrival (mkFrame 1 4 10 [4]) false) s = s.countPort .returned
      ∧ after (.frameArrival [1, 4, 10, 0, 0, 0] false) s = s.countPort .crcError := by
  decide +kernel

/-- The CRC of R175 is the one published as CRC-16/MODBUS: its check value on "123456789", and the frame
01 04 02 FF FF B8 80 commonly given as an example of it (both from outside the spec and the model). -/
theorem test_crc_published_values :
    crc [0x31, 0x32, 0x33, 0x34, 0x35, 0x36, 0x37, 0x38, 0x39] = 0x4B37#16
      ∧ crc [1, 4, 2, 255, 255] = 0x80B8#16
      ∧ crcMatches [1, 4, 2, 255, 255, 0xB8, 0x80] = true := by decide +kernel

/-- The end of F1: a drive frame goes before a forwarded one. -/
theorem test_portSendEnd_prefers_drive :
    let s := cell .ready
    let t := after (.portSendEnd false)
      { s with rp := { s.rp with port := some ⟨[1], false⟩, forward := [⟨[2], false⟩],
                                 drive := [(.a, ⟨[3], false⟩), (.b, ⟨[4], false⟩)] } }
    t.rp.port = some ⟨[3], false⟩ ∧ t.rp.drive = [(.b, ⟨[4], false⟩)] := by decide +kernel

/-- Request bytes read as their row (chapter 11): DISABLE HEAD H3. -/
theorem test_request_frame :
    ((after (.frameArrival (mkFrame 4 1 4 [7, 0, 1, 42, 3]) true) (cell .ready)).head 3).ctx.state
      = .disabled := by decide +kernel

/-! ### Requests and resets (chapter 11, worked example) -/

/-- Q2: slot period 25 and rating 2600 are clamped, and A leaves OFF. -/
def partConfig : PartConfigArg where
  slotPeriod := 25
  concentrator := 0
  ioStation := 0
  stationA := 5
  stationB := 0
  noticeStation := 0
  ratingA := 2600
  ratingB := 0
  vt := 460
  vf := 540
  wakeTimeout := 300
  idleDelay := 2000
  interlockTimeout := 30
  rescueLimit := 400
  resumeWindow := 5000
  modeA := 0
  modeB := 0

theorem test_writePartConfig_clamps :
    let t := after (.writePartConfig engineer partConfig) State.reset
    t.mu.config.slotPeriod = 20 ∧ t.mu.config.ratingA = 2500 ∧ (t.gen .a).state = .standby
      ∧ t.slots.period = 5 := by decide +kernel

/-- Q1: ENG_EN is low. -/
theorem test_writePartConfig_denied :
    after (.writePartConfig { engineer with engEn := false } partConfig) State.reset =
      State.reset.answered { engineer with engEn := false } 40 .denied [] := by decide +kernel

/-- Q3. -/
theorem test_start_before_ack :
    after (.start operator 0 0 1) State.reset = State.reset.answered operator 16 .notReady [] := by
  decide +kernel

/-- Q4. -/
theorem test_ackColdStart :
    (after (.ackColdStart operator) State.reset).mu.cold = false := by decide +kernel

/-- Q5 waits while four replies wait. -/
theorem test_clearCounters_waits :
    let s := State.reset
    let full := { s with rp := { s.rp with port := some ⟨[], false⟩,
                                           replies := List.replicate 4 ⟨[], false⟩ } }
    (after (.clearCounters operator) full).mu.requests = [⟨1, 7, 1, 25, []⟩] := by decide +kernel

theorem test_clearCounters :
    ((after (.clearCounters operator) ((cell .ready).countDev 3 .weak)).head 3).deviations =
      Vector.replicate 11 0 := by decide +kernel

/-- Q6, and the end of R7: the soft reset keeps the configuration. -/
theorem test_resetPart_then_end_of_send :
    let t := after .softReset (after (.resetPart engineer) (joint .running 0))
    t.mu.cold = true ∧ t.mu.config.stationA = 5 ∧ (t.gen .a).state = .standby
      ∧ (t.head 3).ctx.state = .idle := by decide +kernel

theorem test_softReset_needs_marked_reply : after .softReset (cell .ready) = cell .ready := by
  decide +kernel

theorem test_powerOnReset :
    after (.powerOnReset 4 false) (joint .running 0) = State.reset := by decide +kernel

theorem test_held_reset_and_release :
    let s := after (.powerOnReset 9 true) (cell .ready)
    after .timebaseTick s = s ∧ (after (.rstNRelease true) s).rp.skipFrame = true
      ∧ (after (.rstNRelease true) s).rstHeld = false := by decide +kernel

theorem test_timebaseTick :
    let t := after .timebaseTick (joint .running 0)
    t.timebase = 1 ∧ (t.head 3).ctx.sampleTimer = some 14 ∧ (t.gen .a).statusTimer = some 14 := by
  decide +kernel

theorem test_unknownCommand :
    after (.unknownCommand operator 77 [1]) (cell .ready) =
      (cell .ready).answered operator 77 .unknownCommand [] := by decide +kernel

theorem test_writeFaultPolicy_fixed_kind :
    after (.writeFaultPolicy engineer (List.replicate 9 (1, 0))) (cell .ready) =
      (cell .ready).answered engineer 41 .badArgument [] := by decide +kernel

theorem test_writeFaultPolicy_masks :
    (after (.writeFaultPolicy engineer (List.replicate 9 (0, 1))) (cell .ready)).masked .couplingLow
      = true := by decide +kernel

theorem test_writeHeadConfig_in_use :
    let w : HeadConfigArg := ⟨3, 0, 9, false, 3000, 0, 500, .activeOn, .activeOn, .activeOff⟩
    after (.writeHeadConfig engineer w) (joint .running 0) =
      (joint .running 0).answered engineer 38 .inUse []
      ∧ ((after (.writeHeadConfig engineer w) (cell .ready)).head 3).cfg.priority = 7
      ∧ ((after (.writeHeadConfig engineer w) (cell .ready)).head 3).inputs.part.satisfied = false := by
  decide +kernel

/-! ### Reads -/

/-- The bytes of the reply being sent, but for its check. -/
def replyBytes (s : State) : List Byte := ((s.rp.port.map TxFrame.bytes).getD []).dropLast.dropLast

theorem test_readStatus_page_0_starts :
    ((replyBytes (after (.readStatus operator 0) State.reset)).drop 4).take 9 =
      [7, 0, 1, 0, 0, 1, 4, 0, 1] := by decide +kernel

theorem test_readConfig_starts :
    ((replyBytes (after (.readConfig operator) State.reset)).drop 4).take 7 =
      [7, 0, 2, 0, 4, 5, 0] := by decide +kernel

theorem test_readCounters_bad_page :
    after (.readCounters operator 2) State.reset = State.reset.answered operator 3 .badArgument [] := by
  decide +kernel

theorem test_readPhases_bad_table :
    after (.readPhases operator 0 2) State.reset = State.reset.answered operator 5 .badArgument [] := by
  decide +kernel

theorem test_readHead_starts :
    ((replyBytes (after (.readHead operator 3) (joint .running 0))).drop 4).take 9 =
      [7, 0, 6, 0, 2, 181, 156, 0, 0] := by decide +kernel

theorem test_readFaults_empty :
    (replyBytes (after (.readFaults operator 3) (cell .ready))).drop 4 =
      [7, 0, 7, 0, 0, 0, 0, 0, 0, 0] := by decide +kernel

/-- Chapter 9, time 10710: an empty queue gives zero records. -/
theorem test_readResults_empty :
    after (.readResults operator 2) State.reset = State.reset.answered operator 8 .ok [0, 0, 0] := by
  decide +kernel

/-- Chapter 9: READ RESULTS removes the record that PEEK RESULTS leaves. -/
theorem test_results_read_and_peeked :
    let s := after (.abort operator 3) (joint .running 0)
    (after (.readResults operator 4) s).results = [] ∧ (after (.peekResults operator 4) s).results = s.results := by
  decide +kernel


/-! ### Witnesses: for each statement, a state and operands that meet its hypotheses -/

/-- `s` with a command waiting. -/
def queued (s : State) (c : Instr) : State := { s with pending := [c] }

theorem witness_StepRunsFrontCommand :
    (queued State.reset .timebaseTick).pending = .timebaseTick :: [] ∧ State.reset.pending = [] :=
  ⟨rfl, rfl⟩

/-- The part while RST_N is held low. -/
def held : State := { cell .ready with rstHeld := true }

/-- The part after the release during a frame. -/
def skipping : State := { cell .ready with rp := { (cell .ready).rp with skipFrame := true } }

theorem witness_HeldResetIgnoresOtherEvents :
    held.rstHeld = true ∧ (∀ straps low, Instr.timebaseTick ≠ .powerOnReset straps low)
      ∧ (∀ f, Instr.timebaseTick ≠ .rstNRelease f) ∧ skipping.rstHeld = false
      ∧ skipping.rp.skipFrame = true :=
  ⟨rfl, nofun, nofun, rfl, rfl⟩

theorem witness_TimebaseCountsMilliseconds :
    let s := { cell .ready with timebase := 4294967295 }
    s.rstHeld = false ∧ s.timebase = 4294967295 ∧ Instr.slotExpiry ≠ .timebaseTick
      ∧ (∀ straps low, Instr.slotExpiry ≠ .powerOnReset straps low)
      ∧ ((joint .waitGen 0).head 3).ctx.entryOffset < 4294967296 :=
  ⟨rfl, rfl, nofun, nofun, by decide +kernel⟩

theorem witness_TickCountsEveryTimerDown : (joint .running 0).rstHeld = false := by decide +kernel

/-- The port while the reply of a RESET PART is sent. -/
def resetting : State :=
  { joint .running 0 with
      rp := { (joint .running 0).rp with port := some ⟨[1], true⟩ } }

theorem witness_SoftResetAtMarkedReplyEnd :
    resetting.rstHeld = false ∧ resetting.rp.port = some ⟨[1], true⟩
      ∧ (⟨[1], true⟩ : TxFrame).resetMark = true := ⟨by decide +kernel, rfl, rfl⟩

theorem witness_OriginatedFrameReadsBack : (List.replicate 248 (0 : Byte)).length ≤ 248 := by
  decide +kernel

/-- One frame for each clause, at the ends of their ranges. -/
theorem witness_ReceptionChecksInOrder :
    let s := cell .ready
    let own := s.ownStation
    s.rstHeld = false ∧ s.rp.skipFrame = false ∧ ([] : List Byte).length < 6
      ∧ crcMatches [1, 4, 10, 0, 0, 0] = false ∧ 63 < (64 : Byte).toNat
      ∧ ((63 : Byte).toNat ≤ 63 ∧ (63 : Byte) ≠ own ∧ (1 : Byte) ≠ own)
      ∧ ¬ (s.rp.station = 0 ∨ s.rp.station = 63) ∧ (4 : Byte) = own
      ∧ ({ s with rp := { s.rp with station := 63 } } : State).rp.station = 63
      ∧ (List.replicate 7 (0 : Byte)).length ≠ 8 ∧ (List.replicate 3 (0 : Byte)).length < 4
      ∧ (0 : Byte) ≠ own ∧ s.mu.config.concentrator ≠ 0 ∧ s.mu.config.concentrator ≠ (7 : Byte).toNat
      ∧ s.mu.config.ioStation ≠ 0 ∧ s.mu.config.ioStation ≠ (7 : Byte).toNat
      ∧ ([0, 2, 2, 33, 0, 0, 0, 255] : List Byte).head? = some (genCode .a)
      ∧ s.mu.config.station .a ≠ 0 ∧ s.mu.config.station .a ≠ (7 : Byte).toNat := by decide +kernel

/-- Frames whose check field matches and whose size does not: a length of 249, and a payload missing. -/
theorem witness_ReceptionChecksInOrder_sizes :
    let sized := fun n : Byte => 4 :: 2 :: 8 :: n :: le16 (crc [4, 2, 8, n]).toNat
    (6 ≤ (sized 249).length ∧ crcMatches (sized 249) = true ∧ 248 < (249 : Byte).toNat)
      ∧ (crcMatches (sized 1) = true ∧ (sized 1).length ≠ 6 + (1 : Byte).toNat) := by
  decide +kernel

theorem witness_PortSendsByPreference :
    let f : TxFrame := ⟨[1], false⟩
    let free := (cell .ready).rp
    let busy := { free with port := some f }
    (free.port = none ∧ free.forward = [] ∧ free.notices = [] ∧ free.drive = [] ∧ free.replies = [])
      ∧ 24 ≤ ({ busy with forward := List.replicate 24 f } : RingPort).forward.length
      ∧ ({ busy with forward := List.replicate 23 f } : RingPort).forward.length < 24
      ∧ 16 ≤ ({ busy with notices := List.replicate 16 f } : RingPort).notices.length
      ∧ ({ busy with notices := List.replicate 15 f } : RingPort).notices.length < 16
      ∧ (busy.port ≠ none ∧ busy.port = some f ∧ f.resetMark = false)
      ∧ (({ busy with drive := [(.a, f), (.b, f)] } : RingPort).drive = [] ++ (.a, f) :: [(.b, f)]
        ∧ ∀ p ∈ ([] : List (GenId × TxFrame)) ++ [(.b, f)], p.1 ≠ .a)
      ∧ (cell .ready).rstHeld = false ∧ (cell .ready).mu.requests = [] := by decide +kernel

theorem witness_RowEqualsFrameArrival :
    (Instr.start operator 3 5 40117).request = some (operator, 16, encStart 3 5 40117)
      ∧ (Instr.start operator 3 5 40117).wellFormed = true := by decide +kernel

theorem witness_RequestsWaitInOrder :
    let s := cell .ready
    let q : Request := ⟨1, 7, 1, 25, []⟩
    let f : TxFrame := ⟨[1], false⟩
    let full := { s with mu := { s.mu with requests := List.replicate 4 q } }
    let waits := { s with mu := { s.mu with requests := List.replicate 3 q },
                          rp := { s.rp with port := some f, replies := List.replicate 4 f } }
    (Instr.clearCounters operator).request = some (operator, 25, [])
      ∧ (full.rstHeld = false ∧ full.rp.skipFrame = false ∧ full.rp.station ≠ 0
        ∧ full.rp.station ≠ 63 ∧ operator.source ≠ full.ownStation ∧ 4 ≤ full.mu.requests.length)
      ∧ (waits.mu.requests.length < 4 ∧ 4 ≤ waits.rp.replies.length)
      ∧ (waits.rp.port = some f ∧ f.resetMark = false ∧ waits.rp.drive = [] ∧ waits.rp.forward = []
        ∧ waits.rp.replies = f :: List.replicate 3 f ∧ waits.mu.requests = q :: List.replicate 2 q
        ∧ waits.mu.resetPending = false) := by decide +kernel

theorem witness_DeniedAndUnknownCommands :
    (Instr.eraseProfile operator 5 none).request = some (operator, 33, [5, 0])
      ∧ (Instr.writeProfile operator writeP5).request = some (operator, 32, encWriteProfile writeP5)
      ∧ (Instr.resetPart operator).request = some (operator, 44, [])
      ∧ (cell .ready).Takes operator ∧ ¬ IsEngineer operator
      ∧ commandCodes.contains (45 : Byte).toNat = false
      ∧ commandCodes.contains (0 : Byte).toNat = false := by decide +kernel

/-- Arguments too short and too long, for an operator's command, a list and the fault policy. -/
theorem witness_DeniedAndUnknownCommands_sizes :
    let policy := Instr.writeFaultPolicy engineer (List.replicate 9 (1, 1))
    ((Instr.readStatus operator 0).request = some (operator, 1, [0])
        ∧ (Instr.readStatus operator 0).wellFormed = true ∧ commandCodes.contains (1 : Byte).toNat = true
        ∧ ([] : List Byte) ≠ [0] ∧ ([] : List Byte) <+: [0] ∧ [(0 : Byte)] <+: [0, 0]
        ∧ (cell .ready).Takes operator)
      ∧ ((Instr.clearFaults operator 3 [0, 1]).request = some (operator, 21, [3, 2, 0, 1])
        ∧ (Instr.clearFaults operator 3 [0, 1]).wellFormed = true
        ∧ [(3 : Byte), 2, 0] <+: [3, 2, 0, 1] ∧ [(3 : Byte), 2, 0, 1] <+: [3, 2, 0, 1, 2])
      ∧ policy.request = some (engineer, 41, List.replicate 18 1) ∧ policy.wellFormed = true
      ∧ (List.replicate 16 (1 : Byte)) <+: List.replicate 18 1 ∧ (cell .ready).Takes engineer
      ∧ IsEngineer engineer ∧ (List.replicate 244 (1 : Byte)).length ≤ 244 := by decide +kernel

theorem witness_EngineeringStateNeedsEngEn :
    (∃ t, exec (.writeProfile operator writeP5) (cell .ready) = .next t)
      ∧ (Instr.writeProfile operator writeP5).engLevel = some false := ⟨⟨_, rfl⟩, rfl⟩

/-- A request is taken at once in each of these states; the last is the premise of every read. -/
theorem witness_reads :
    (cell .ready).Takes operator ∧ (joint .running 0).Takes operator
      ∧ (joint .suspended 1).Takes engineer := by decide +kernel

theorem witness_PartReadsAnswerAndKeepState :
    (joint .running 0).Takes operator ∧ 3 ≤ (3 : Byte).toNat ∧ 2 ≤ (2 : Byte).toNat := by
  decide +kernel

theorem witness_ProfileAndPhaseReadsKeepState :
    (cell .ready).Takes operator ∧ ((cell .ready).profile 6).recipe = none
      ∧ ((cell .ready).profile 5).recipe = some copperBend ∧ 32 ≤ (32 : Byte).toNat
      ∧ 2 ≤ (2 : Byte).toNat := by decide +kernel

theorem witness_HeadReadsKeepState :
    (joint .suspended 1).Takes operator ∧ 16 ≤ (16 : Byte).toNat := by decide +kernel

theorem witness_ResultReadsTakeOldest :
    let s := after (.abort operator 3) (joint .running 0)
    s.Takes operator ∧ 1 ≤ (1 : Byte).toNat ∧ (4 : Byte).toNat ≤ 4 ∧ s.results = s.results ++ []
      ∧ s.results.length = min (4 : Byte).toNat s.results.length ∧ s.results.length = 1
      ∧ 5 ≤ (5 : Byte).toNat := by decide +kernel

/-- A result record. -/
def result : ResultRecord :=
  { serial := 1, head := 0, profile := 0, revision := 1, outcome := .accept, failed := none,
    kind := none, peak := 0, timeAboveFlow := 0, joules := 0, duration := 0, segsDone := 1,
    rescueCount := 0, resumed := false, derated := false, earlyRelease := false,
    coolTimeout := false }

/-- The queue with every place taken. -/
def fullResults : State := { cell .ready with results := List.replicate 48 result }

/-- One state for each check of START. -/
theorem witness_StartRefusedByFirstFailedCheck :
    let s := cell .ready
    State.reset.Takes operator ∧ State.reset.mu.cold = true ∧ s.Takes operator ∧ s.mu.cold = false
      ∧ 16 ≤ (16 : Byte).toNat ∧ ((joint .running 0).head 3).ctx.state ≠ .idle
      ∧ (s.head 3).ctx.state = .idle ∧ 32 ≤ (32 : Byte).toNat ∧ (s.profile 6).recipe = none
      ∧ (s.head 0).cfg.binding = none
      ∧ ((s.head 3).cfg.binding = some .a ∧ ((cell .off).gen .a).state = .off)
      ∧ (s.profile 5).recipe ≠ none ∧ (s.gen .a).state ≠ .off ∧ s.verdict 3 = true
      ∧ s.latched 3 = false ∧ s.latched 3 ≠ (s.modGroup 0 fun x => { x with latch := true }).latched 3
      ∧ (s.modHead 3 fun x => { x with inputs := ⟨.reset, closed, closed⟩ }).verdict 3 = false
      ∧ 48 ≤ fullResults.results.length + fullResults.reservations := by decide +kernel

theorem witness_StartEntersJoint :
    let s := cell .ready
    s.Takes operator ∧ s.mu.cold = false ∧ (s.head 3).ctx.state = .idle
      ∧ (s.profile 5).recipe = some copperBend
      ∧ copperBend.segments = .ramp 7600 3000 100 4000 2500
          :: [.soak 7750 2500 900, .cool 5000 6000]
      ∧ (s.head 3).cfg.binding = some .a ∧ s.verdict 3 = true ∧ s.latched 3 = false
      ∧ s.results.length + s.reservations < 48 ∧ s.inRescue 3 = false ∧ (s.gen .a).state = .ready
      ∧ ((cell .waking).gen .a).state = .waking ∧ ((cell .standby).gen .a).state = .standby
      ∧ ((cell .faulted).gen .a).state = .faulted := by
  decide +kernel

theorem witness_AbortEndsJoint :
    let s := joint .running 0
    s.Takes operator ∧ s.holds 3 = true ∧ s.holds 4 = false ∧ 16 ≤ (16 : Byte).toNat := by
  decide +kernel

theorem witness_SuspendHeadSuspends :
    (joint .running 0).Takes operator ∧ ((joint .running 0).head 3).ctx.state = .running
      ∧ ((joint .waitGen 0).head 3).ctx.state = .waitGen
      ∧ ((joint .running 0).head 4).ctx.state ≠ .running
      ∧ ((joint .running 0).head 4).ctx.state ≠ .waitGen ∧ 16 ≤ (16 : Byte).toNat := by decide +kernel

/-- The suspend record of `joint .suspended 1`. -/
def record1 : SuspendRecord :=
  { cause := .manual, segIndex := 1, elapsed := 40, rampOrigin := some 2500, setpoint := 7000,
    filtered := some 5900, integrator := 300, energy := 0, timeAboveFlow := 0, peak := 5900,
    rescueCount := 0, inRescue := false, derated := false, time := 0 }

/-- The accepted clauses with `k` 1 (and 0, a RAMP, and 2, a COOL), the refused ones with `k` 2, a
COOLANT_LOST in the status, a latch. -/
theorem witness_ResumeHeadResumes :
    let s := joint .suspended 1
    let lost := s.modHead 3 fun x => { x with fr := { x.fr with status := [.coolantLost] } }
    s.Takes operator ∧ 16 ≤ (16 : Byte).toNat ∧ ((cell .ready).head 3).ctx.state ≠ .suspended
      ∧ (s.head 3).ctx.state = .suspended ∧ (s.head 3).ctx.suspendRec = some record1
      ∧ record1.segIndex < (2 : Byte).toNat
      ∧ ¬ (record1.segIndex < (1 : Byte).toNat ∨ (true = true ∧ (1 : Byte).toNat ≠ record1.segIndex))
      ∧ FaultKind.coolantLost ∈ (lost.head 3).fr.status ∧ (s.head 3).fr.status = []
      ∧ s.verdict 3 = true ∧ s.latched 3 = false
      ∧ (s.modGroup 0 fun x => { x with latch := true }).latched 3 = true
      ∧ (s.head 3).cfg.binding = some .a ∧ (s.gen .a).state = .ready
      ∧ (∀ st ∈ [GenState.waking, .standby, .faulted],
          ((s.modGen .a fun x => { x with state := st }).gen .a).state = st)
      ∧ s.inRescue 3 = false ∧ copperBend.segments[0]? = some (.ramp 7600 3000 100 4000 2500)
      ∧ copperBend.segments[2]? = some (.cool 5000 6000)
      ∧ (((joint .suspended 2).head 3).ctx.suspendRec.map SuspendRecord.segIndex) = some 2
      ∧ (s.head 3).ctx.profile = some 5 ∧ (s.profile 5).recipe = some copperBend
      ∧ copperBend.segments[(1 : Byte).toNat]? = some (.soak 7750 2500 900) := by decide +kernel

theorem witness_ClearHeadMakesFaultedHeadIdle :
    (faulted []).Takes operator ∧ ((faulted []).head 3).ctx.state = .faulted
      ∧ ((faulted []).head 3).fr.status = [] ∧ ((faulted [.overtemp]).head 3).fr.status ≠ []
      ∧ ((faulted []).head 4).ctx.state ≠ .faulted ∧ 16 ≤ (16 : Byte).toNat := by decide +kernel

/-- H3 disabled. -/
def disabledCell : State := after (.disableHead engineer 3) (cell .ready)

theorem witness_DisableHeadDisablesIdleHead :
    (joint .running 0).Takes engineer ∧ IsEngineer engineer ∧ (joint .running 0).Takes operator
      ∧ ¬ IsEngineer operator ∧ ((joint .running 0).head 3).ctx.state ≠ .idle
      ∧ ((joint .running 0).head 4).ctx.state = .idle ∧ disabledCell.mu.cold = false
      ∧ disabledCell.Takes operator ∧ (disabledCell.head 3).ctx.state = .disabled := by decide +kernel

theorem witness_EnableHeadMakesDisabledHeadIdle :
    disabledCell.Takes engineer ∧ IsEngineer engineer ∧ disabledCell.Takes operator
      ∧ ¬ IsEngineer operator ∧ (disabledCell.head 3).ctx.state = .disabled
      ∧ (disabledCell.head 4).ctx.state ≠ .disabled ∧ 16 ≤ (16 : Byte).toNat := by decide +kernel

theorem witness_ClearFaultsRemovesKinds :
    (faulted [.sensorLost]).Takes operator ∧ [FaultKind.sensorLost] ≠ [] ∧ 16 ≤ (16 : Byte).toNat
      ∧ 9 ≤ (9 : Byte).toNat := by decide +kernel

theorem witness_WriteHeadConfigStoresFields :
    (joint .running 0).TakesEngineer engineer ∧ 16 ≤ (16 : Byte).toNat ∧ 3 ≤ (3 : Byte).toNat
      ∧ (3 : Byte) = byte (3 : HeadId).val ∧ (0 : Byte) = bindingCode (some .a)
      ∧ (joint .running 0).holds 3 = true ∧ (joint .running 0).holds 4 = false := by decide +kernel

theorem witness_WriteProfileStoresClampedRecord :
    (cell .ready).TakesEngineer engineer ∧ writeP5.profile = byte (5 : ProfileId).val
      ∧ (joint .running 0).inUse 5 = true ∧ (cell .ready).inUse 5 = false
      ∧ ((cell .ready).profile 5).locked = false ∧ (0 : Word16) ≠ ((cell .ready).profile 5).revision
      ∧ ((after (.lockProfile engineer 5 none) (cell .ready)).profile 5).locked = true
      ∧ writeP5.segCount.toNat = writeP5.segments.length ∧ writeP5.segments.all SegArg.known = true := by
  decide +kernel

/-- The contents P5 is asked to hold are legal, as the statement's `fits` asks. -/
theorem witness_legal_recipe : copperBend.Legal := by
  refine ⟨by decide, by decide, ⟨.ramp 7600 3000 100 4000 2500, by simp [copperBend], rfl⟩,
    by decide, by decide, by decide, by decide, by decide, by decide, ?_⟩
  simp [copperBend, Segment.Legal]

theorem witness_EraseAndLocksChangeOneRecord :
    (joint .running 0).TakesEngineer engineer ∧ 32 ≤ (32 : Byte).toNat
      ∧ ((joint .running 0).profile 5).locked = false ∧ (joint .running 0).inUse 5 = true
      ∧ (cell .ready).TakesEngineer engineer ∧ (cell .ready).inUse 5 = false
      ∧ ((cell .ready).profile 5).revision = 1
      ∧ ((after (.lockProfile engineer 5 none) (cell .ready)).profile 5).locked = true := by
  decide +kernel

theorem witness_WritePhasesChangesStagedTable :
    let s := (cell .ready).modGen .a fun x => { x with loadPending := true }
    (cell .ready).TakesEngineer engineer ∧ s.TakesEngineer engineer ∧ 2 ≤ (2 : Byte).toNat
      ∧ 32 < (33 : Byte).toNat ∧ (32 : Byte).toNat < (31 : Byte).toNat + [(0 : Byte), 1].length
      ∧ (16 ≤ (254 : Byte).toNat ∧ (254 : Byte) ≠ 255) ∧ (32 : Byte).toNat ≤ 32
      ∧ (31 : Byte).toNat + [some (3 : HeadId)].length ≤ (32 : Byte).toNat
      ∧ (s.gen .a).loadPending = true ∧ ((cell .ready).gen .a).loadPending = false := by decide +kernel

theorem witness_LoadPhasesSetsLoadPending :
    let s := (cell .ready).modGen .a fun x => { x with staged := table [3, 9] }
    s.TakesEngineer engineer ∧ 2 ≤ (2 : Byte).toNat ∧ (s.gen .a).loadPending = false
      ∧ (1 < (s.gen .a).staged.length ∧ (s.gen .a).staged.entries[1] = some 9
        ∧ (s.head 9).cfg.binding ≠ some .a)
      ∧ ((cell .ready).gen .a).staged.length = 0
      ∧ ((s.modGen .a fun x => { x with loadPending := true }).gen .a).loadPending = true := by
  decide +kernel

/-- The pairs of H0-H6 with each other. -/
def manyPairs : List (HeadId × HeadId) :=
  [(0, 1), (0, 2), (0, 3), (0, 4), (0, 5), (0, 6), (1, 2), (1, 3), (1, 4), (1, 5), (1, 6), (2, 3),
   (2, 4), (2, 5), (2, 6), (3, 4), (3, 5)]

theorem witness_WriteExclusionsReplacesList :
    (cell .ready).TakesEngineer engineer ∧ 16 ≤ (16 : Byte).toNat
      ∧ (∀ p ∈ manyPairs, p.1 ≠ p.2) ∧ 16 < manyPairs.length
      ∧ (manyPairs.Pairwise fun p q => samePair p q = false)
      ∧ (manyPairs.tail.length ≤ 16 ∧ ∀ p ∈ manyPairs.tail, ∃ q ∈ manyPairs.tail, samePair p q = true)
      ∧ (∀ p ∈ [((1 : HeadId), (9 : HeadId)), (9, 1)], ∃ q ∈ [((1 : HeadId), (9 : HeadId))],
          samePair p q = true) := by decide +kernel

theorem witness_WritePartConfigStoresClampedRecord :
    (cell .ready).TakesEngineer engineer ∧ 2 ≤ (2 : Byte).toNat
      ∧ min (540 : Word16).toNat 1000 ≤ min (540 : Word16).toNat 1000
      ∧ partConfig.modeA = RescueMode.fixed.code ∧ partConfig.modeB = RescueMode.fixed.code
      ∧ min partConfig.vt.toNat 1000 < min partConfig.vf.toNat 1000
      ∧ (joint .running 0).TakesEngineer engineer ∧ (joint .running 0).holds 3 = true
      ∧ (joint .running 0).mu.config.slotPeriod ≠ 20 := by decide +kernel

theorem witness_WriteFaultPolicyReplacesPolicy :
    (cell .ready).TakesEngineer engineer ∧ (List.replicate 8 ((1 : Byte), (1 : Byte))).length ≠ 9
      ∧ 2 ≤ (2 : Byte).toNat ∧ FaultKind.couplingLow.fixedAbort = false
      ∧ FaultKind.overtemp.fixedAbort = true
      ∧ ((List.replicate 9 ((1 : Byte), (0 : Byte)))[FaultKind.overtemp.idx.val]?).map Prod.snd = some 0
      ∧ FaultKind.all.all (fun k => !k.fixedAbort || FaultKind.fixedAbort k) = true := by
  decide +kernel

theorem witness_CommandsWithoutChecks :
    (joint .running 0).Takes engineer ∧ IsEngineer engineer := by decide +kernel

theorem witness_ClearGeneratorEntersStandby :
    let s := (cell .faulted).modGen .a fun x => { x with reported := some .fault }
    (cell .faulted).Takes operator ∧ ((cell .faulted).gen .a).state = .faulted
      ∧ ((cell .faulted).gen .a).reported ≠ some .fault ∧ s.Takes operator
      ∧ (s.gen .a).reported = some .fault ∧ ((cell .ready).gen .a).state ≠ .faulted
      ∧ 2 ≤ (2 : Byte).toNat := by decide +kernel

theorem witness_ClearCoolantLatchNeedsFlow :
    let s := (cell .ready).modGroup 1 fun _ => ⟨closed, true⟩
    s.Takes operator ∧ (s.group 1).flow.satisfied = true ∧ (s.group 0).flow.satisfied = false
      ∧ 4 ≤ (4 : Byte).toNat := by decide +kernel

/-- H3 at the expiry of its segment timer in segment `k`. -/
def segmentDue (k : Nat) : State := (joint .running k).modCtx 3 fun c => { c with segTimer := some 0 }

theorem witness_SegmentTimerExitsSegment :
    (∀ k ∈ [1, 2], (segmentDue k).rstHeld = false ∧ ((segmentDue k).head 3).ctx.state = .running
      ∧ ((segmentDue k).head 3).ctx.segTimer = some 0
      ∧ ((segmentDue k).head 3).ctx.entryOffset = 0
      ∧ ((segmentDue k).head 3).ctx.contEntry = false
      ∧ ((segmentDue k).head 3).ctx.profile = some 5
      ∧ ((segmentDue k).profile 5).recipe = some copperBend
      ∧ ((segmentDue k).head 3).ctx.segIndex = k)
    ∧ copperBend.segments[1]? = some (.soak 7750 2500 900)
    ∧ copperBend.segments[2]? = some (.cool 5000 6000) ∧ 2 + 1 = copperBend.segments.length
    ∧ (∀ t a b l c, Segment.soak 7750 2500 900 ≠ .ramp t a b l c)
    ∧ ∀ t a b l c, Segment.cool 5000 6000 ≠ .ramp t a b l c :=
  ⟨by decide +kernel, rfl, rfl, rfl, nofun, nofun⟩

/-- The exit into a RAMP with the latch set, with the interlocks open and with both in order. -/
theorem witness_SegmentTimerExitsSegment_heats :
    let s := reheating
    let clear := s.modGroup 0 fun x => { x with latch := false }
    let opened := clear.modHead 3 fun x => { x with inputs := ⟨.reset, closed, closed⟩ }
    s.rstHeld = false ∧ (s.head 3).ctx.state = .running ∧ (s.head 3).ctx.segTimer = some 0
      ∧ (s.head 3).ctx.entryOffset = 0 ∧ (s.head 3).ctx.contEntry = false
      ∧ s.segment 3 = some (.cool 5000 6000)
      ∧ ((s.recipe 3).bind fun q => q.segments[1]?) = some (.ramp 7600 3000 100 4000 2500)
      ∧ s.latched 3 = true ∧ (opened.latched 3 = false ∧ opened.verdict 3 = false)
      ∧ (clear.latched 3 = false ∧ clear.verdict 3 = true) := by decide +kernel

theorem witness_TimerExpiriesRaiseFaults :
    let s := (joint .running 0).modCtx 3 fun c => { c with segTimer := some 0, sampleTimer := some 0 }
    let q := (joint .suspended 1).modCtx 3 fun c => { c with windowTimer := some 0 }
    let v := inService 7588
    s.rstHeld = false ∧ (s.head 3).ctx.state = .running ∧ (s.head 3).ctx.sampleTimer = some 0
      ∧ (s.head 3).ctx.segTimer = some 0 ∧ s.segment 3 = some (.ramp 7600 3000 100 4000 2500)
      ∧ q.rstHeld = false ∧ (q.head 3).ctx.state = .suspended ∧ (q.head 3).ctx.windowTimer = some 0
      ∧ v.rstHeld = false ∧ (v.gen .a).inService = some 3 ∧ (v.gen .a).limitTimer = some 0
      ∧ (v.head 3).ctx.state = .running := by decide +kernel

theorem witness_GeneratorTimerExpiries :
    let w := (cell .waking).modGen .a fun x => { x with wakeTimer := some 0 }
    let l := (joint .running 0).modGen .a fun x => { x with statusTimer := some 0 }
    let i := (cell .ready).modGen .a fun x => { x with idleTimer := some 0 }
    (w.rstHeld = false ∧ (w.gen .a).state = .waking ∧ (w.gen .a).wakeTimer = some 0)
      ∧ (l.rstHeld = false ∧ (l.gen .a).state = .ready ∧ (l.gen .a).statusTimer = some 0
        ∧ (l.head 3).cfg.binding = some .a ∧ (l.head 3).ctx.state = .running
        ∧ (l.head 4).cfg.binding ≠ some .a)
      ∧ (∀ h, (w.head h).cfg.binding ≠ some .a
        ∨ ((w.head h).ctx.state ≠ .running ∧ (w.head h).ctx.state ≠ .waitGen))
      ∧ (i.rstHeld = false ∧ (i.gen .a).state = .ready ∧ (i.gen .a).idleTimer = some 0) := by
  decide +kernel

theorem witness_InterlocksDebounceAndLatch :
    let s := { joint .running 0 with interlocks :=
      { (joint .running 0).interlocks with frameTimer := some 0 } }
    s.rstHeld = false ∧ s.rp.skipFrame = false ∧ s.rp.station ≠ 0 ∧ s.rp.station ≠ 63
      ∧ (3 : Byte) ≠ s.ownStation ∧ s.mu.config.ioStation = (3 : Byte).toNat ∧ s.holds 4 = false
      ∧ s.interlocks.frameTimer = some 0 ∧ (s.head 3).ctx.state = .running ∧ s.inCool 3 = false
      ∧ s.verdict 3 = true := by decide +kernel

/-- A coolant loss and an interlock loss for each state of a head that holds a joint, every group lost at once and
none lost again; no joint at all. -/
theorem witness_InterlocksDebounceAndLatch_losses :
    let s := joint .running 0
    let quiet := s.modGroup 1 fun x => { x with latch := true }
    (∀ g, (s.group g).latch = false ∧ (s.group g).flow.satisfied = false)
      ∧ ((quiet.group 1).latch = true ∧ (quiet.group 1).flow.satisfied = false)
      ∧ ((s.modGroup 0 fun _ => ⟨closed, true⟩).group 0).flow.satisfied = true
      ∧ (s.verdict 3 = true ∧ (after (.frameArrival
          (mkFrame s.ownStation 3 3 (List.replicate 6 0 ++ [15])) false) s).verdict 3 = false)
      ∧ ((joint .waitGen 0).head 3).ctx.state = .waitGen
      ∧ (((joint .running 2).head 3).ctx.state = .running ∧ (joint .running 2).inCool 3 = true)
      ∧ ((joint .suspended 1).head 3).ctx.state = .suspended
      ∧ (∀ h, (cell .ready).holds h = false) := by decide +kernel

theorem witness_SequenceCheckOfSamples :
    let s := (cell .ready).modHcu 3 fun u => { u with seqRef := some 40 }
    s.Consumes 2 s.mu.config.concentrator ∧ 16 ≤ (16 : Byte).toNat ∧ 3 ≤ (3 : Byte).toNat
      ∧ (2 : Byte).toNat < 3 ∧ (s.head 3).hcu.seqRef = some 40
      ∧ 128 ≤ ((168 : Byte) - 40).toNat ∧ 128 ≤ ((39 : Byte) - 40).toNat
      ∧ 1 ≤ ((41 : Byte) - 40).toNat ∧ ((167 : Byte) - 40).toNat < 128 ∧ s.holds 3 = false
      ∧ ((cell .ready).head 3).hcu.seqRef = none := by decide +kernel

/-- The sample of a GOOD, WEAK or NONE quality as taken at timebase 0. -/
def taken (seq : Byte) (tm cur : Nat) (q : Quality) : Sample := ⟨seq, tm, cur, q, false, 0⟩

/-- Sample 41 of chapter 3 for the running clause; a temperature for OVERTEMP and for the exit; a third low
coil current; the first sample of an unknown temperature. -/
theorem witness_SampleRunsFilterAndControlLaw :
    let s := ramping
    let rc : Recipe :=
      { copperBend with segments := [.ramp 7600 3000 100 4000 1500, .cool 5000 6000] }
    let x := s.head 3
    let low : Head := { x with cfg := { x.cfg with couplingMin := 100 },
                               ctx := { x.ctx with served := true, couplingLow := 2 } }
    let new : Head := { x with hcu := { x.hcu with filtered := none, seqRef := none } }
    s.Consumes 2 s.mu.config.concentrator ∧ x.ctx.state = .running
      ∧ x.ctx.profile = some 5 ∧ (s.profile 5).recipe = some rc
      ∧ rc.segments[x.ctx.segIndex]? = some (.ramp 7600 3000 100 4000 1500)
      ∧ (x.accepts 41 = true ∧ x.accepts 42 = true ∧ x.accepts 167 = true)
      ∧ (x.accepts 40 = false ∧ x.accepts 168 = false)
      ∧ (2 : Byte).toNat < 3
      ∧ (x.tempAfter rc.params (taken 41 12000 0 .good) = some 8950 ∧ rc.params.maxTemp < 8950)
      ∧ (x.tempAfter rc.params (taken 41 5980 0 .good) = some 5940 ∧ 5940 ≤ rc.params.maxTemp
        ∧ 5940 + 100 < 7600)
      ∧ (x.tempAfter rc.params (taken 41 9200 0 .good) = some 7550 ∧ 7600 ≤ 7550 + 100)
      ∧ x.lowCount (taken 41 5980 0 .good) ≠ 3
      ∧ (low.lowCount (taken 41 5980 99 .good) = 3 ∧ low.lowCount (taken 41 5980 100 .good) ≠ 3)
      ∧ (new.accepts 200 = true ∧ new.tempAfter rc.params (taken 41 5980 0 .none) = none
        ∧ new.tempAfter rc.params (taken 41 5980 0 .weak) = some 5980)
      ∧ x.ctx.entryOffset = 0 ∧ x.ctx.contEntry = false
      ∧ (joint .running 2).segment 3 = some (.cool 5000 6000)
      ∧ ((joint .running 2).head 3).tempAfter copperBend.params (taken 41 4100 0 .good) = some 5000
      ∧ ((joint .running 2).head 3).tempAfter copperBend.params (taken 41 4102 0 .good) = some 5001 := by
  decide +kernel

/-- H3 waiting and suspended: sample 42 misses one number, and 8400 is not above the maximum temperature. -/
theorem witness_SampleRunsFilterAndControlLaw_waiting :
    (∀ s ∈ [joint .waitGen 0, joint .suspended 1],
        s.Consumes 2 s.mu.config.concentrator
          ∧ ((s.head 3).ctx.state = .waitGen ∨ (s.head 3).ctx.state = .suspended)
          ∧ (s.head 3).ctx.profile = some 5 ∧ (s.profile 5).recipe = some copperBend
          ∧ (s.head 3).accepts 42 = true
          ∧ (s.head 3).tempAfter copperBend.params (taken 42 10900 0 .good) = some 8400
          ∧ (s.head 3).tempAfter copperBend.params (taken 42 10902 0 .good) = some 8401)
      ∧ copperBend.params.maxTemp = 8400 := by decide +kernel

/-- In the deficit, between the bands, and recovered; a first sample of quality NONE. -/
theorem witness_SoakSampleJudgesDeficit :
    let s := soaking 7599
    let m := taken 41 0 0 .none
    let new : Head := { s.head 3 with hcu := { (s.head 3).hcu with filtered := none } }
    s.Consumes 2 s.mu.config.concentrator ∧ (s.head 3).ctx.state = .running
      ∧ (s.head 3).ctx.profile = some 5 ∧ (s.profile 5).recipe = some copperBend
      ∧ copperBend.segments[(s.head 3).ctx.segIndex]? = some (.soak 7750 2500 900)
      ∧ ((s.head 3).accepts 41 = true ∧ (s.head 3).accepts 167 = true) ∧ (s.head 3).lowCount m ≠ 3
      ∧ ((s.head 3).tempAfter copperBend.params m = some 7599
        ∧ 7599 + copperBend.params.deficitBand < 7750)
      ∧ (((soaking 7600).head 3).tempAfter copperBend.params m = some 7600
        ∧ ¬ 7600 + copperBend.params.deficitBand < 7750 ∧ ¬ 7750 ≤ 7600 + copperBend.params.recoverBand)
      ∧ 7750 ≤ 7700 + copperBend.params.recoverBand
      ∧ new.tempAfter copperBend.params m = none := by decide +kernel

/-- The values of a report byte. -/
def reports : List Reported := [.standby, .waking, .ready, .fault]

theorem witness_GenstatRecordsAndCredits :
    let s := (joint .running 0).modGen .a fun x => { x with history := [⟨40, 3, 40117, 900⟩] }
    s.Consumes 5 (s.mu.config.station .a) ∧ s.mu.config.station .a ≠ 0
      ∧ State.reset.Consumes 5 0 ∧ 2 ≤ (2 : Byte).toNat ∧ 4 ≤ (4 : Byte).toNat
      ∧ (16 ≤ (254 : Byte).toNat ∧ (254 : Byte) ≠ 255) ∧ (3 : Byte).toNat < 4
      ∧ State.reset.Consumes 5 (State.reset.mu.config.station .a)
      ∧ (State.reset.gen .a).state = .off ∧ (s.gen .a).state = .ready
      ∧ (reports[(2 : Byte).toNat]? = some .ready ∧ reports[(0 : Byte).toNat]? = some .standby)
      ∧ (∀ st ∈ [GenState.standby, .waking, .faulted], ((cell st).gen .a).state = st
        ∧ (cell st).Consumes 5 ((cell st).mu.config.station .a)) := by decide +kernel

/-- A report that echoes the joint's entry, one that echoes none, and an entry whose joint is over; the same
whatever the generator's state. -/
theorem witness_GenstatRecordsAndCredits_credit :
    let s := (joint .running 0).modGen .a fun x => { x with history := [⟨40, 3, 40117, 900⟩] }
    let ended := (cell .faulted).modGen .a fun x => { x with history := [⟨40, 3, 40117, 900⟩] }
    1 ≤ (1 : Word16).toNat ∧ (s.gen .a).history = [] ++ ⟨40, 3, 40117, 900⟩ :: []
      ∧ s.holds 3 = true ∧ (s.head 3).ctx.serial = 40117
      ∧ (∀ x ∈ (s.gen .a).history, ¬ (x.slot = 38 ∧ x.head = 3))
      ∧ ended.holds 3 = false ∧ (ended.gen .a).history = [] ++ ⟨40, 3, 40117, 900⟩ :: [] := by
  decide +kernel

/-- Faulted by a report: H3 RUNNING on A, READY, and nothing on B. -/
theorem witness_GenstatMovesGeneratorState :
    let s := joint .running 0
    s.Consumes 5 (s.mu.config.station .a) ∧ (s.gen .a).state = .ready ∧ s.heatedBy .a 3
      ∧ (∀ h, h ≠ 3 → ¬ s.heatedBy .a h) ∧ (s.gen .b).inService = none
      ∧ reports[(3 : Byte).toNat]? = some .fault ∧ reports[(1 : Byte).toNat]? = some .waking
      ∧ ((cell .faulted).gen .a).state = .faulted ∧ (∀ h, ¬ (cell .ready).heatedBy .a h) := by
  decide +kernel

/-- A READY report to a WAKING generator, H3 waiting: its RAMP passes the entry test, fails it by the latch, fails
it by the verdict; a COOL has none. -/
theorem witness_GenstatMovesGeneratorState_ready :
    let w := (joint .waitGen 0).modGen .a fun x => { x with state := .waking }
    let dry := w.modGroup (groupOf 3) fun x => { x with latch := true }
    let off := w.modHead 3 fun x => { x with inputs := ⟨⟨some false, false, false⟩, closed, closed⟩ }
    w.Consumes 5 (w.mu.config.station .a) ∧ (w.gen .a).state = .waking
      ∧ reports[(2 : Byte).toNat]? = some .ready
      ∧ ((w.gen .a).inService = none ∧ (w.gen .b).inService = none)
      ∧ (∀ s ∈ [w, dry, off], s.waitsFor .a 3
        ∧ s.segment 3 = some (.ramp 7600 3000 100 4000 2500))
      ∧ (w.verdict 3 = true ∧ w.latched 3 = false) ∧ dry.latched 3 = true
      ∧ (off.latched 3 = false ∧ off.verdict 3 = false)
      ∧ (joint .waitGen 2).segment 3 = some (.cool 5000 6000)
      ∧ (∀ h, h ≠ 3 → ¬ w.waitsFor .a h) := by decide +kernel

theorem witness_SlotAdvancesRounds :
    let s := (round 108 3 []).modGen .a fun x =>
      { x with staged := table [0, 2, 1, 2, 3], loadPending := true }
    s.rstHeld = false ∧ s.slots.timer = 0 ∧ (cell .ready).slots.timer ≠ 0
      ∧ (s.gen .a).pointer = some 3 ∧ (s.gen .a).active.length = 4
      ∧ (s.gen .b).active.length = 0 := by decide +kernel

/-- A feeds H0; B's one entry H1 is barred by the exclusion pair, and fed without it; H3 is fed by neither. -/
theorem witness_PowerFramesOnlyToEligibleHeads :
    let s := twoGenerators [(1, 0)]
    s.rstHeld = false ∧ s.slots.timer = 0 ∧ samePair (1, 0) (0, 1) = true
      ∧ s.slots.exclusions = [(1, 0)] ∧ (s.head 1).cfg.binding = some .b
      ∧ (s.gen .b).state = .ready ∧ s.mu.config.station .b ≠ 0
      ∧ (State.reset.mu.config.station .b = 0) := by decide +kernel

/-- H0 in service with priority 7, H2 a candidate with priority 1, in generator A's mode `m`. -/
def rescueRound (m : RescueMode) (service : Option HeadId) : State :=
  let s := (round 102 3 [(0, 1, 900), (2, 1, 900)]).modHead 2 fun x =>
    { x with rescueReq := true, cfg := { x.cfg with priority := 1 } }
  { s.modGen .a fun x => { x with inService := service, limitTimer := some 100 } with
    mu := { s.mu with config := { s.mu.config with modeA := m } } }

theorem rescueRound_legal (m : RescueMode) (b : Bool) :
    (rescueRound m (if b then some 0 else none)).RescueLegal := by
  unfold State.RescueLegal
  cases m <;> cases b <;> refine ⟨fun g => ?_, ?_, fun g => ?_⟩ <;>
    first | decide +kernel | (cases g <;> decide +kernel)

/-- A preemption in FIXED mode, a grant in either mode, and a place that ROTATING mode keeps. -/
theorem witness_RescueGrantsBestCandidate :
    (rescueRound .fixed (some 0)).RescueLegal ∧ (rescueRound .fixed none).RescueLegal
      ∧ (rescueRound .rotating none).RescueLegal
      ∧ ((rescueRound .fixed (some 0)).rstHeld = false ∧ (rescueRound .fixed (some 0)).slots.timer = 0)
      ∧ (let s := rescueRound .fixed (some 0)
        s.mu.config.mode .a = .fixed ∧ (s.gen .a).inService = some 0
          ∧ ((s.head 2).cfg.binding = some .a ∧ (s.head 2).rescueReq = true
            ∧ (s.head 2).cfg.masked = false)
          ∧ (s.head 2).cfg.priority < (s.head 0).cfg.priority
          ∧ ∀ k : HeadId, (s.head k).cfg.binding = some .a ∧ (s.head k).rescueReq = true
              ∧ (s.head k).cfg.masked = false →
            (s.head 2).cfg.priority * 16 + 2 ≤ (s.head k).cfg.priority * 16 + k.val)
      ∧ (let s := rescueRound .rotating none
        s.mu.config.mode .a = .rotating ∧ (s.gen .a).inService = none
          ∧ (s.gen .a).rotation = [0, 1] ++ 2 :: [3, 4, 5, 6, 7, 8, 9, 10, 11, 12, 13, 14, 15]
          ∧ ∀ k ∈ [(0 : HeadId), 1], (s.head k).rescueReq = false) :=
  ⟨rescueRound_legal .fixed true, rescueRound_legal .fixed false, rescueRound_legal .rotating false,
    by decide +kernel, by decide +kernel, by decide +kernel⟩

/-! ### The invariants on a part that runs a joint -/

/-- H3 RUNNING in the RAMP of P5, a tick waiting. -/
def running : State := queued (joint .running 0) .timebaseTick

theorem witness_step : ∃ t, step running = .next t := ⟨_, rfl⟩

theorem running_others : ∀ h : HeadId, h ≠ 3 → running.head h = Head.powerOn := by decide +kernel

theorem running_profiles : ∀ p : ProfileId,
    (p = 5 ∧ (running.profile p).recipe = some copperBend) ∨ (running.profile p).recipe = none := by
  decide +kernel

theorem witness_StepKeepsQueuesAndCounters : running.QueuesLegal ∧ running.CountersLegal := by
  unfold State.QueuesLegal State.CountersLegal
  decide +kernel

theorem running_profilesLegal : running.ProfilesLegal := fun p r h => by
  rcases running_profiles p with ⟨-, q⟩ | q <;> rw [q] at h
  · cases h; exact witness_legal_recipe
  · cases h

theorem witness_StepKeepsJointsLegal : running.JointsLegal := by
  refine ⟨running_profilesLegal, fun h => ?_, by decide +kernel⟩
  by_cases e : h = 3
  · subst e
    exact ⟨by decide +kernel, fun _ => ⟨5, copperBend, by decide +kernel, by decide +kernel,
      by decide +kernel, by decide +kernel, fun q hq => by
        have : (running.head 3).ctx.suspendRec = none := by decide +kernel
        rw [this] at hq; cases hq⟩, by decide +kernel, by decide +kernel⟩
  · simp [State.JointLegal, State.holds, running_others h e, Head.powerOn, HeadContext.reset,
      HeadState.holdsJoint]

theorem witness_StepKeepsTimersLegal : running.TimersLegal := by
  unfold State.TimersLegal State.GenTimersLegal HeadContext.TimersLegal
  exact ⟨by decide +kernel, fun g => by cases g <;> decide +kernel⟩

theorem witness_StepKeepsRescueLegal : running.RescueLegal := by
  unfold State.RescueLegal
  exact ⟨fun g => by cases g <;> decide +kernel, by decide +kernel,
    fun g => by cases g <;> decide +kernel⟩

theorem witness_StepKeepsHeatLegal : running.HeatsLegal := fun h => by
  by_cases e : h = 3
  · subst e
    have f : (running.head 3).hcu.filtered = some 5900 := by decide +kernel
    have o : (running.head 3).ctx.rampOrigin = some 2500 := by decide +kernel
    have m : (running.head 3).hcu.lastSample = none := by decide +kernel
    have q : (running.head 3).ctx.suspendRec = none := by decide +kernel
    have g : running.segment 3 = some (.ramp 7600 3000 100 4000 2500) := by decide +kernel
    have v : (running.head 3).hcu.integrator = 300 ∧ (running.head 3).hcu.demand = 700 := by
      decide +kernel
    refine ⟨?_, ?_, by decide +kernel, by decide +kernel, by decide +kernel, by decide +kernel,
      fun _ k hk => ?_, ?_, ?_⟩
    · simp [f, atMost]
    · simp [o, atMost]
    · rw [g] at hk; cases hk; simp [v, Segment.ceiling]
    · simp [m]
    · simp [q]
  · simp [State.HeatLegal, running_others h e, Head.powerOn, HeadContext.reset, Hcu.reset, atMost]

theorem witness_StepKeepsFaultsAndInputs : running.FaultsLegal ∧ running.InputsLegal := by
  unfold State.InputsLegal Input.Legal
  refine ⟨fun h => ?_, by decide +kernel⟩
  have f : (running.head h).fr = ⟨[], none, none⟩ := by revert h; decide +kernel
  simp [FaultRecord.Legal, f]

theorem witness_StepKeepsTablesAndConfig :
    running.TablesLegal ∧ running.ConfigLegal ∧ running.GensLegal := by
  unfold State.TablesLegal Generator.TablesLegal PhaseTable.Legal State.ConfigLegal PartConfig.Legal
    HeadConfig.Legal
  refine ⟨⟨⟨by decide +kernel, by decide +kernel, rfl⟩, ⟨by decide +kernel, by decide +kernel, rfl⟩,
    by decide +kernel⟩, ⟨by decide +kernel, by decide +kernel, fun k => ?_, by decide +kernel⟩,
    fun g => ?_⟩
  · cases k <;> decide +kernel
  · unfold State.GenLegal
    cases g <;> decide +kernel

theorem witness_JointFiguresNeverDecrease :
    running.FiguresLegal ∧ running.holds 3 = true
      ∧ (after .timebaseTick running).holds 3 = true := by
  unfold State.FiguresLegal
  decide +kernel

end Sys2Proof.Tests
end

section
/-! PROOFS. The tick (R1), and what every other event leaves of the part's clock: the timebase, the level of
RST_N and the waiting commands. -/

namespace Sys2Proof.Machine

variable (s : State)

/-! ### The tick (R1) -/

/-- A millisecond takes one from a running timer and nothing from a stopped one. -/
theorem tickTimer_eq_map (t : Option Nat) : tickTimer t = t.map (· - 1) := by
  cases t <;> rfl

/-- A tick while RST_N is high is the counting down of every timer. -/
theorem exec_tick_of_running (running : s.rstHeld = false) :
    exec .timebaseTick s = .next (tick s) := live_of_running tick running

/-! ### The clock -/

/-- What no command but a tick, a power-on reset and the release of RST_N touches (R1, R189): the timebase
and the level of RST_N, and beside them the waiting commands, which a step alone takes (log 1). -/
def State.clockPart (s : State) : Word32 × Bool × List Instr := (s.timebase, s.rstHeld, s.pending)

/-- The same clock is the same timebase. -/
theorem timebase_of_clockPart {s t : State} (e : t.clockPart = s.clockPart) :
    t.timebase = s.timebase := congrArg Prod.fst e

/-- What events of heads, generators and interlocks do not touch has the clock in it. -/
theorem clockPart_of_fixedPart {s t : State} (e : t.fixedPart = s.fixedPart) :
    t.clockPart = s.clockPart := by
  simp only [State.fixedPart, Prod.mk.injEq] at e
  obtain ⟨-, -, -, time, held, -, waiting⟩ := e
  simp only [State.clockPart, time, held, waiting]

/-- An event keeps the clock. -/
def KeepsClock (f : State → State) : Prop := ∀ s, (f s).clockPart = s.clockPart

/-- What carrying out a command does keeps the clock. -/
def BodyKeepsClock (body : State → Answer) : Prop :=
  ∀ s, (body s).after.clockPart = s.clockPart

/-- An event that keeps the fixed part keeps the clock. -/
theorem keepsClock_of_fixedPart {f : State → State} (fixed : ∀ s, (f s).fixedPart = s.fixedPart) :
    KeepsClock f := fun s => clockPart_of_fixedPart (fixed s)

/-! ### Updates keep the clock -/

@[simp] theorem clockPart_modHead (h : HeadId) (f : Head → Head) :
    (s.modHead h f).clockPart = s.clockPart := rfl

@[simp] theorem clockPart_modCtx (h : HeadId) (f : HeadContext → HeadContext) :
    (s.modCtx h f).clockPart = s.clockPart := rfl

@[simp] theorem clockPart_modGen (g : GenId) (f : Generator → Generator) :
    (s.modGen g f).clockPart = s.clockPart := clockPart_of_fixedPart (fixedPart_modGen s g f)

@[simp] theorem clockPart_modProfile (p : ProfileId) (f : ProfileRecord → ProfileRecord) :
    (s.modProfile p f).clockPart = s.clockPart := rfl

@[simp] theorem clockPart_modRp (f : RingPort → RingPort) :
    (s.modRp f).clockPart = s.clockPart := rfl

@[simp] theorem clockPart_modMu (f : Management → Management) :
    (s.modMu f).clockPart = s.clockPart := rfl

@[simp] theorem clockPart_countPort (c : PortCounter) :
    (s.countPort c).clockPart = s.clockPart := rfl

@[simp] theorem clockPart_noticeGenState (g : GenId) (left : GenState) :
    (s.noticeGenState g left).clockPart = s.clockPart :=
  clockPart_of_fixedPart (fixedPart_noticeGenState s g left)

/-! ### Slots keep all but the slot clock (R74) -/

@[simp] theorem fixedPart_modRp (f : RingPort → RingPort) :
    (s.modRp f).fixedPart = s.fixedPart := rfl

@[simp] theorem fixedPart_advancePhase (g : GenId) :
    (advancePhase g s).fixedPart = s.fixedPart := by
  unfold advancePhase
  dsimp only
  split
  · exact (fixedPart_notice _ _).trans (fixedPart_modGen s g _)
  · exact fixedPart_modGen s g _

@[simp] theorem fixedPart_grantRescue (g : GenId) (h : HeadId) :
    (grantRescue g h s).fixedPart = s.fixedPart := by simp [grantRescue]

@[simp] theorem fixedPart_resolveRescue (g : GenId) :
    (resolveRescue g s).fixedPart = s.fixedPart := by
  rcases resolveRescue_cases g s with e | ⟨w, -, -, e⟩ | ⟨k, w, -, -, -, e⟩
  · rw [e]
  · rw [e, fixedPart_grantRescue]
  · rw [e, preempt]; simp

@[simp] theorem fixedPart_serveGenerator (g : GenId) (other : Option HeadId) :
    (serveGenerator g other s).1.fixedPart = s.fixedPart := by
  have borrowed : ∀ sel t, (countBorrowed sel t).fixedPart = t.fixedPart := by
    intro sel t; unfold countBorrowed; split <;> simp
  simp [serveGenerator, borrowed]

@[simp] theorem fixedPart_powerEffects (g : GenId) (h : HeadId) :
    (powerEffects g h s).fixedPart = s.fixedPart := by
  unfold powerEffects
  dsimp only
  rw [fixedPart_modGen]
  split <;> split <;> simp

@[simp] theorem fixedPart_buildDrive (g : GenId) (served : Option HeadId) :
    (buildDrive g served s).fixedPart = s.fixedPart := by
  unfold buildDrive
  split
  · rfl
  · dsimp only
    rw [fixedPart_modRp]
    split <;> simp

/-- The work of a slot expiry, after the restart of the slot timer, keeps the fixed part. -/
theorem fixedPart_slotWork : (slotWork s).fixedPart = (restartSlot s).fixedPart := by
  simp [slotWork]

theorem slotExpiry_keepsClock : KeepsClock slotExpiry := by
  intro s
  unfold slotExpiry
  split
  · exact (clockPart_of_fixedPart (fixedPart_slotWork s)).trans rfl
  · rfl

/-! ### Timer expiries of heads and generators -/

theorem fixedPart_segmentExpiry (h : HeadId) : (segmentExpiry h s).fixedPart = s.fixedPart := by
  unfold segmentExpiry
  split
  · split <;> simp
  · rfl

theorem fixedPart_sampleExpiry (h : HeadId) : (sampleExpiry h s).fixedPart = s.fixedPart := by
  unfold sampleExpiry; split <;> simp

theorem fixedPart_windowExpiry (h : HeadId) : (windowExpiry h s).fixedPart = s.fixedPart := by
  unfold windowExpiry; split <;> simp

theorem fixedPart_wakeExpiry (g : GenId) : (wakeExpiry g s).fixedPart = s.fixedPart := by
  unfold wakeExpiry; split <;> simp

theorem fixedPart_statusExpiry (g : GenId) : (statusExpiry g s).fixedPart = s.fixedPart := by
  unfold statusExpiry; split <;> simp

theorem fixedPart_idleExpiry (g : GenId) : (idleExpiry g s).fixedPart = s.fixedPart := by
  unfold idleExpiry; split <;> simp

theorem fixedPart_rescueLimitExpiry (g : GenId) :
    (rescueLimitExpiry g s).fixedPart = s.fixedPart := by
  unfold rescueLimitExpiry
  split
  · split <;> simp
  · rfl

/-! ### Samples (chapter 3) -/

@[simp] theorem fixedPart_soakTests (p : Params) (t tf : Nat) (h : HeadId) :
    (soakTests p t tf h s).fixedPart = s.fixedPart := by
  unfold soakTests raiseRequest
  split
  · split
    · rfl
    · dsimp only; split <;> simp
  · split <;> simp

@[simp] theorem fixedPart_runSample (m : TakenSample) (p : Params) :
    (runSample m p s).fixedPart = s.fixedPart := by
  have steered : ∀ f : Head → Head,
      (if m.quality.usable then s.modHead m.head f else s).fixedPart = s.fixedPart := by
    intro f; split <;> simp
  unfold runSample
  split
  · rfl
  · dsimp only
    split
    · exact steered _
    · split
      · exact (fixedPart_soakTests ..).trans (steered _)
      · split
        · exact (fixedPart_exitSegment ..).trans (steered _)
        · exact steered _

@[simp] theorem fixedPart_processSample (m : TakenSample) (p : Params) :
    (processSample m p s).fixedPart = s.fixedPart := by
  unfold processSample
  dsimp only
  split
  · simp
  · split
    · split <;> simp
    · simp

@[simp] theorem fixedPart_acceptSample (m : TakenSample) :
    (acceptSample m s).fixedPart = s.fixedPart := by
  have kept : (if m.quality = .weak then (keepSample m s).countDev m.head .weak
      else keepSample m s).fixedPart = s.fixedPart := by
    split <;> simp [keepSample]
  unfold acceptSample
  dsimp only
  generalize (if m.quality = .weak then (keepSample m s).countDev m.head .weak
      else keepSample m s) = t at kept ⊢
  split
  · split
    · exact kept
    · exact (fixedPart_processSample ..).trans kept
  · exact kept

/-- A SAMPLE (R50, R51). -/
theorem fixedPart_takeSample (p : List Byte) : (takeSample p s).fixedPart = s.fixedPart := by
  unfold takeSample sequenceSample
  split
  · simp
  · split <;> simp

/-! ### Interlocks (chapter 7) -/

/-- The inputs and the frame timer are outside the fixed part. -/
theorem fixedPart_withInterlocks (i : Interlocks) :
    ({ s with interlocks := i } : State).fixedPart = s.fixedPart := rfl

theorem fixedPart_showFrame (m : InterlockFrame) : (showFrame m s).fixedPart = s.fixedPart := by
  simp [showFrame, State.fixedPart]

theorem fixedPart_dropAllInputs : (dropAllInputs s).fixedPart = s.fixedPart := by
  simp [dropAllInputs, State.fixedPart]

/-- An INTERLOCK frame (R127). -/
theorem fixedPart_takeInterlock (p : List Byte) : (takeInterlock p s).fixedPart = s.fixedPart := by
  unfold takeInterlock
  split
  · rfl
  · unfold takeInterlockFrame
    rw [fixedPart_actOnLosses, fixedPart_showFrame, fixedPart_withInterlocks]

theorem fixedPart_interlockExpiry : (interlockExpiry s).fixedPart = s.fixedPart := by
  unfold interlockExpiry
  split
  · dsimp only
    rw [fixedPart_actOnLosses, fixedPart_withInterlocks, fixedPart_dropAllInputs]
  · rfl

/-! ### A management command's answer: the plumbing -/

/-- A refusal has no effect. -/
@[simp] theorem refuse_after (st : Status) : (refuse st s).after = s := rfl

/-- An accepted request's effect is the one it is given. -/
@[simp] theorem accept_after (data : List Byte) : (accept data s).after = s := rfl

/-- A command at a head keeps the clock where its body does. -/
theorem withHead_keepsClock {f : HeadId → State → Answer} (b : Byte)
    (keeps : ∀ h, BodyKeepsClock (f h)) : BodyKeepsClock (withHead b f) := by
  intro s
  unfold withHead; split
  · exact keeps _ s
  · rfl

/-- A command at a generator keeps the clock where its body does. -/
theorem withGen_keepsClock {f : GenId → State → Answer} (b : Byte)
    (keeps : ∀ g, BodyKeepsClock (f g)) : BodyKeepsClock (withGen b f) := by
  intro s
  unfold withGen; split
  · exact keeps _ s
  · rfl

/-- A command at a profile keeps the clock where its body does. -/
theorem withProfile_keepsClock {f : ProfileId → State → Answer} (b : Byte)
    (keeps : ∀ p, BodyKeepsClock (f p)) : BodyKeepsClock (withProfile b f) := by
  intro s
  unfold withProfile; split
  · exact keeps _ s
  · rfl

/-- A command read from bytes keeps the clock where its body does. -/
theorem withArgs_keepsClock {α : Type} {read : Reader α} {args : List Byte}
    {f : α → State → Answer} (keeps : ∀ a, BodyKeepsClock (f a)) :
    BodyKeepsClock (withArgs read args f) := by
  intro s
  unfold withArgs; split
  · exact keeps _ s
  · rfl

/-! ### Each command's answer -/

@[simp] theorem doReadStatus_after (page : Byte) : (doReadStatus page s).after = s := by
  simp only [doReadStatus, apply_ite Answer.after, accept_after, refuse_after, ite_self]

@[simp] theorem doReadConfig_after : (doReadConfig s).after = s := rfl

@[simp] theorem doReadCounters_after (page : Byte) : (doReadCounters page s).after = s := by
  simp only [doReadCounters, apply_ite Answer.after, accept_after, refuse_after, ite_self]

@[simp] theorem doReadProfile_after (p : Byte) : (doReadProfile p s).after = s := by
  unfold doReadProfile withProfile; split <;> rfl

@[simp] theorem doReadPhases_after (g table : Byte) : (doReadPhases g table s).after = s := by
  unfold doReadPhases withGen
  split
  · simp only [apply_ite Answer.after, accept_after, refuse_after, ite_self]
  · rfl

@[simp] theorem doReadHead_after (h : Byte) : (doReadHead h s).after = s := by
  unfold doReadHead withHead; split <;> rfl

@[simp] theorem doReadFaults_after (h : Byte) : (doReadFaults h s).after = s := by
  unfold doReadFaults withHead; split <;> rfl

@[simp] theorem doPeekResults_after (n : Byte) : (doPeekResults n s).after = s := by
  unfold doPeekResults; split <;> rfl

@[simp] theorem clockPart_doReadResults (n : Byte) :
    (doReadResults n s).after.clockPart = s.clockPart := by
  unfold doReadResults; split <;> rfl

@[simp] theorem fixedPart_startJoint (h : HeadId) (p : ProfileId) (serial : Word32) :
    (startJoint h p serial s).fixedPart = s.fixedPart := by simp [startJoint]

@[simp] theorem fixedPart_resumeJoint (h : HeadId) (r : SuspendRecord) (k : Nat) (cont : Bool) :
    (resumeJoint h r k cont s).fixedPart = s.fixedPart := by simp [resumeJoint]

@[simp] theorem clockPart_doStart (h p : Byte) (n : Word32) :
    (doStart h p n s).after.clockPart = s.clockPart := by
  unfold doStart
  split
  · rfl
  refine withHead_keepsClock h (fun h t => ?_) s
  split
  · rfl
  split
  · rfl
  split
  · rfl
  split
  · rfl
  · exact clockPart_of_fixedPart (fixedPart_startJoint ..)

@[simp] theorem clockPart_doAbort (h : Byte) : (doAbort h s).after.clockPart = s.clockPart := by
  refine withHead_keepsClock h (fun h t => ?_) s
  split
  · exact clockPart_of_fixedPart (fixedPart_finishJoint ..)
  · rfl

@[simp] theorem clockPart_doSuspendHead (h : Byte) :
    (doSuspendHead h s).after.clockPart = s.clockPart := by
  refine withHead_keepsClock h (fun h t => ?_) s
  split
  · exact clockPart_of_fixedPart (fixedPart_suspend ..)
  · rfl

@[simp] theorem clockPart_doResumeHead (h k : Byte) (cont : Bool) :
    (doResumeHead h k cont s).after.clockPart = s.clockPart := by
  refine withHead_keepsClock h (fun h t => ?_) s
  split
  · rfl
  split
  · rfl
  split
  · rfl
  split
  · rfl
  split
  · rfl
  · exact clockPart_of_fixedPart (fixedPart_resumeJoint ..)

@[simp] theorem clockPart_doClearHead (h : Byte) :
    (doClearHead h s).after.clockPart = s.clockPart := by
  refine withHead_keepsClock h (fun h t => ?_) s
  simp [apply_ite Answer.after, apply_ite State.clockPart]

@[simp] theorem clockPart_doDisableHead (h : Byte) :
    (doDisableHead h s).after.clockPart = s.clockPart := by
  refine withHead_keepsClock h (fun h t => ?_) s
  simp [apply_ite Answer.after, apply_ite State.clockPart]

@[simp] theorem clockPart_doEnableHead (h : Byte) :
    (doEnableHead h s).after.clockPart = s.clockPart := by
  refine withHead_keepsClock h (fun h t => ?_) s
  simp [apply_ite Answer.after, apply_ite State.clockPart]

@[simp] theorem clockPart_doClearFaults (h : Byte) (kinds : List Byte) :
    (doClearFaults h kinds s).after.clockPart = s.clockPart := by
  refine withHead_keepsClock h (fun h t => ?_) s
  split <;> rfl

@[simp] theorem clockPart_doWriteHeadConfig (w : HeadConfigArg) :
    (doWriteHeadConfig w s).after.clockPart = s.clockPart := by
  refine withHead_keepsClock w.head (fun h t => ?_) s
  split
  · rfl
  · split <;> rfl

@[simp] theorem clockPart_doClearCoolantLatch (g : Byte) :
    (doClearCoolantLatch g s).after.clockPart = s.clockPart := by
  unfold doClearCoolantLatch
  split
  · rfl
  · split <;> rfl

@[simp] theorem clockPart_doClearGenerator (g : Byte) :
    (doClearGenerator g s).after.clockPart = s.clockPart := by
  refine withGen_keepsClock g (fun g t => ?_) s
  simp [apply_ite Answer.after, apply_ite State.clockPart]

@[simp] theorem clockPart_doAckColdStart : (doAckColdStart s).after.clockPart = s.clockPart := rfl

@[simp] theorem clockPart_doClearCounters : (doClearCounters s).after.clockPart = s.clockPart := by
  simp [doClearCounters, zeroCounters, State.clockPart]

@[simp] theorem clockPart_doResetPart : (doResetPart s).after.clockPart = s.clockPart := rfl

@[simp] theorem clockPart_doWriteProfile (w : ProfileArg) :
    (doWriteProfile w s).after.clockPart = s.clockPart := by
  refine withProfile_keepsClock w.profile (fun p t => ?_) s
  simp [apply_ite Answer.after, apply_ite State.clockPart, refuseStale]

@[simp] theorem clockPart_doEraseProfile (p : Byte) (e : Option Word16) :
    (doEraseProfile p e s).after.clockPart = s.clockPart := by
  refine withProfile_keepsClock p (fun p t => ?_) s
  simp [apply_ite Answer.after, apply_ite State.clockPart, refuseStale]

@[simp] theorem clockPart_doLockProfile (p : Byte) :
    (doLockProfile p s).after.clockPart = s.clockPart :=
  withProfile_keepsClock p (fun _ _ => rfl) s

@[simp] theorem clockPart_doUnlockProfile (p : Byte) :
    (doUnlockProfile p s).after.clockPart = s.clockPart := by
  refine withProfile_keepsClock p (fun p t => ?_) s
  split <;> rfl

@[simp] theorem clockPart_doWritePhases (g i : Byte) (es : List Byte) (n : Byte) :
    (doWritePhases g i es n s).after.clockPart = s.clockPart := by
  refine withGen_keepsClock g (fun g t => ?_) s
  split
  · rfl
  split
  · rfl
  split
  · rfl
  · exact clockPart_modGen ..

@[simp] theorem clockPart_doLoadPhases (g : Byte) :
    (doLoadPhases g s).after.clockPart = s.clockPart := by
  refine withGen_keepsClock g (fun g t => ?_) s
  simp [apply_ite Answer.after, apply_ite State.clockPart]

@[simp] theorem clockPart_doWriteExclusions (ps : List (Byte × Byte)) :
    (doWriteExclusions ps s).after.clockPart = s.clockPart := by
  unfold doWriteExclusions
  split
  · rfl
  · dsimp only; split <;> rfl

@[simp] theorem clockPart_reconfigure (old : PartConfig) (g : GenId) :
    (reconfigure old g s).clockPart = s.clockPart := by
  unfold reconfigure
  dsimp only
  split <;> simp

@[simp] theorem clockPart_doWritePartConfig (w : PartConfigArg) :
    (doWritePartConfig w s).after.clockPart = s.clockPart := by
  unfold doWritePartConfig
  split
  · simp [apply_ite Answer.after, apply_ite State.clockPart, writeConfig]
  · rfl

@[simp] theorem clockPart_doWriteFaultPolicy (ps : List (Byte × Byte)) :
    (doWriteFaultPolicy ps s).after.clockPart = s.clockPart := by
  unfold doWriteFaultPolicy; split <;> rfl

/-! ### Taking a request, and its arrival (R180-R182, R190-R193) -/

/-- An operator command taken keeps the clock where its body does. -/
theorem serveOperator_keepsClock {q : Request} {body : State → Answer}
    (keeps : BodyKeepsClock body) : KeepsClock (serveOperator q body) := keeps

/-- An engineer command taken keeps the clock where its body does. -/
theorem serveEngineer_keepsClock {q : Request} {body : State → Answer}
    (keeps : BodyKeepsClock body) : KeepsClock (serveEngineer q body) := by
  intro s
  change (if engineer q s then body s else refuse .denied s).after.clockPart = s.clockPart
  split
  · exact keeps s
  · rfl

/-- A request carried out by its command code keeps the clock, as every command's answer does (R190). -/
theorem carryOut_keepsClock (q : Request) : KeepsClock (carryOut q) := by
  unfold carryOut
  split
  -- The codes 32 to 44 are the engineer commands; 41, WRITE FAULT POLICY, reads its arguments as pairs.
  case h_20 | h_21 | h_22 | h_23 | h_24 | h_25 | h_26 | h_27 | h_28 | h_30 | h_31 | h_32 =>
    exact serveEngineer_keepsClock (withArgs_keepsClock fun _ _ => by simp)
  case h_29 =>
    refine serveEngineer_keepsClock fun s => ?_
    split <;> simp
  case h_33 => exact serveOperator_keepsClock fun _ => rfl
  all_goals exact serveOperator_keepsClock (withArgs_keepsClock fun _ _ => by simp)

theorem takeOldest_keepsClock : KeepsClock takeOldest := by
  intro s
  rcases takeOldest_cases s with ⟨-, e⟩ | ⟨q, rest, -, e⟩ <;> rw [e]
  exact carryOut_keepsClock q _

/-- A request that arrives is counted, taken or appended (R182, R192). -/
theorem requestArrives_keepsClock (q : Request) {take : State → State} (keeps : KeepsClock take) :
    KeepsClock (requestArrives q take) := by
  intro s
  rcases requestArrives_cases q take s with ⟨-, e⟩ | ⟨-, -, -, e⟩ | ⟨-, e⟩ <;> rw [e]
  · rfl
  · exact keeps s
  · rfl

/-- Reception sets ENG_EN and drops the frame under way at a release, or goes on (R189). -/
theorem receive_keepsClock (engEn : Bool) {f : State → State} (keeps : KeepsClock f) :
    KeepsClock (receive engEn f) := by
  intro s
  unfold receive
  dsimp only
  split
  · rfl
  · exact keeps { s with engEn := engEn }

/-- A management row's frame is forwarded, counted or handed to the Management Unit. -/
theorem commandArrives_keepsClock (r : ReqHead) (code : Byte) (args : List Byte)
    {take : State → State} (keeps : KeepsClock take) :
    KeepsClock (commandArrives r code args take) :=
  receive_keepsClock r.engEn fun t => by
    split
    · rfl
    · split
      · rfl
      · exact requestArrives_keepsClock _ keeps t

/-! ### Frames, sends and the soft reset (R180-R187, R201) -/

/-- A frame that has passed the checks is handed to its block, or counted. -/
theorem consume_keepsClock (f : Received) : KeepsClock (consume f) := by
  intro s
  unfold consume
  split
  · split
    · exact clockPart_of_fixedPart (fixedPart_takeSample s _)
    · rfl
  split
  · split
    · exact clockPart_of_fixedPart (fixedPart_takeGenstat s _)
    · rfl
  split
  · split
    · exact clockPart_of_fixedPart (fixedPart_takeInterlock s _)
    · rfl
  split
  · split
    · exact requestArrives_keepsClock _ (carryOut_keepsClock _) s
    · rfl
  · rfl

/-- A frame is counted, forwarded or consumed. -/
theorem routeFrame_keepsClock (bytes : List Byte) : KeepsClock (routeFrame bytes) := by
  intro s
  unfold routeFrame
  split
  · rfl
  · simp [apply_ite State.clockPart, consume_keepsClock _ s]

theorem arriveFrame_keepsClock (bytes : List Byte) : KeepsClock (arriveFrame bytes) := by
  intro s
  unfold arriveFrame
  split
  · rfl
  · exact routeFrame_keepsClock bytes s

/-- A soft reset leaves the clock running (R1, R201). -/
theorem softReset_keepsClock : KeepsClock softReset := fun _ => rfl

theorem softResetEvent_keepsClock : KeepsClock softResetEvent := by
  intro s
  unfold softResetEvent
  split
  · exact softReset_keepsClock s
  · rfl

theorem nextFrame_keepsClock : KeepsClock nextFrame := by
  intro s
  unfold nextFrame
  dsimp only
  split
  · exact takeOldest_keepsClock _
  · rfl

theorem sendEnd_keepsClock : KeepsClock sendEnd := by
  intro s
  unfold sendEnd
  split
  · rfl
  · split
    · exact softReset_keepsClock s
    · exact nextFrame_keepsClock s

/-! ### Every command -/

/-- A row keeps the clock where its event does. -/
theorem live_keeps_clock {f : State → State} (keeps : KeepsClock f) :
    ∃ t, live f s = .next t ∧ t.clockPart = s.clockPart := by
  refine ⟨_, rfl, ?_⟩
  split
  · rfl
  · exact keeps s

/-- An operator row keeps the clock where its command's body does. -/
theorem operatorRow_keeps_clock (r : ReqHead) (code : Byte) (args : List Byte)
    {body : State → Answer} (keeps : BodyKeepsClock body) :
    ∃ t, operatorRow r code args body s = .next t ∧ t.clockPart = s.clockPart :=
  live_keeps_clock s (commandArrives_keepsClock r code args (serveOperator_keepsClock keeps))

/-- An engineer row keeps the clock where its command's body does. -/
theorem engineerRow_keeps_clock (r : ReqHead) (code : Byte) (args : List Byte)
    {body : State → Answer} (keeps : BodyKeepsClock body) :
    ∃ t, engineerRow r code args body s = .next t ∧ t.clockPart = s.clockPart :=
  live_keeps_clock s (commandArrives_keepsClock r code args (serveEngineer_keepsClock keeps))

/-- Every command but the tick, a power-on reset and the release of RST_N gives a next state with the same
timebase, level of RST_N and waiting commands. -/
theorem exec_keeps_clock (c : Instr) (notTick : c ≠ .timebaseTick)
    (notPowerOn : ∀ straps low, c ≠ .powerOnReset straps low) (notRelease : ∀ f, c ≠ .rstNRelease f) :
    ∃ t, exec c s = .next t ∧ t.clockPart = s.clockPart := by
  cases c with
  | timebaseTick => exact absurd rfl notTick
  | powerOnReset straps low => exact absurd rfl (notPowerOn straps low)
  | rstNRelease f => exact absurd rfl (notRelease f)
  | softReset => exact live_keeps_clock s softResetEvent_keepsClock
  | frameArrival bytes engEn =>
    exact live_keeps_clock s (receive_keepsClock engEn (arriveFrame_keepsClock bytes))
  | portSendEnd engEn =>
    exact live_keeps_clock s fun t => sendEnd_keepsClock { t with engEn := engEn }
  | slotExpiry => exact live_keeps_clock s slotExpiry_keepsClock
  | segmentTimerExpiry h =>
    exact live_keeps_clock s (keepsClock_of_fixedPart fun t => fixedPart_segmentExpiry t h)
  | sampleTimerExpiry h =>
    exact live_keeps_clock s (keepsClock_of_fixedPart fun t => fixedPart_sampleExpiry t h)
  | resumeWindowExpiry h =>
    exact live_keeps_clock s (keepsClock_of_fixedPart fun t => fixedPart_windowExpiry t h)
  | rescueLimitExpiry g =>
    exact live_keeps_clock s (keepsClock_of_fixedPart fun t => fixedPart_rescueLimitExpiry t g)
  | wakeTimerExpiry g =>
    exact live_keeps_clock s (keepsClock_of_fixedPart fun t => fixedPart_wakeExpiry t g)
  | statusTimerExpiry g =>
    exact live_keeps_clock s (keepsClock_of_fixedPart fun t => fixedPart_statusExpiry t g)
  | idleTimerExpiry g =>
    exact live_keeps_clock s (keepsClock_of_fixedPart fun t => fixedPart_idleExpiry t g)
  | interlockFrameTimerExpiry =>
    exact live_keeps_clock s (keepsClock_of_fixedPart fixedPart_interlockExpiry)
  | unknownCommand r code args =>
    exact live_keeps_clock s (commandArrives_keepsClock r code args (carryOut_keepsClock _))
  | readStatus | readConfig | readCounters | readProfile | readPhases | readHead | readFaults
  | readResults | peekResults | start | abort | suspendHead | resumeHead | clearHead | clearFaults
  | clearCoolantLatch | clearGenerator | ackColdStart | clearCounters =>
    exact operatorRow_keeps_clock s _ _ _ fun t => by simp
  | writeProfile | eraseProfile | lockProfile | unlockProfile | writePhases | loadPhases
  | writeHeadConfig | writeExclusions | writePartConfig | writeFaultPolicy | disableHead | enableHead
  | resetPart =>
    exact engineerRow_keeps_clock s _ _ _ fun t => by simp

/-- Every command but the tick and a power-on reset keeps the timebase (R1). -/
theorem exec_keeps_timebase (c : Instr) (notTick : c ≠ .timebaseTick)
    (notPowerOn : ∀ straps low, c ≠ .powerOnReset straps low) :
    ∃ t, exec c s = .next t ∧ t.timebase = s.timebase := by
  by_cases release : ∃ f, c = .rstNRelease f
  · obtain ⟨f, rfl⟩ := release
    refine ⟨releaseRst f s, rfl, ?_⟩
    unfold releaseRst
    split <;> rfl
  · obtain ⟨t, e, same⟩ := exec_keeps_clock s c notTick notPowerOn (not_exists.1 release)
    exact ⟨t, e, timebase_of_clockPart same⟩

/-! ### Differences of readings (R1) -/

/-- The milliseconds since a reading, in natural numbers. -/
theorem since_eq_mod (r : Word32) :
    s.since r = (s.timebase.toNat + 4294967296 - r.toNat) % 4294967296 := by
  unfold State.since; bv_omega

/-- A reading less a duration of fewer than 2^32 milliseconds, in natural numbers. -/
theorem toNat_sub_ofNat (now : Word32) {n : Nat} (lt : n < 4294967296) :
    (now - BitVec.ofNat 32 n).toNat = (now.toNat + 4294967296 - n) % 4294967296 := by
  have e : (BitVec.ofNat 32 n).toNat = n := by rw [BitVec.toNat_ofNat]; omega
  rw [BitVec.toNat_sub, e]
  have := now.isLt
  omega

end Sys2Proof.Machine

namespace Sys2Proof.Proofs

open Sys2Proof.Machine

/-- Settles O7: the tick is the model's, with each timer's count down written as a map. -/
theorem tickCountsEveryTimerDown : Obligations.TickCountsEveryTimerDown := by
  intro s running
  have heads : Head.tick = fun x : Head => { x with ctx :=
      { x.ctx with segTimer := x.ctx.segTimer.map (· - 1),
                   sampleTimer := x.ctx.sampleTimer.map (· - 1),
                   windowTimer := x.ctx.windowTimer.map (· - 1) } } := by
    funext x; simp only [Head.tick, tickTimer_eq_map]
  rw [exec_tick_of_running s running, tick, heads]
  simp only [Generator.tick, tickTimer_eq_map]

/-- Settles O6: the tick's arm counts, every other command's arm keeps the timebase, and word subtraction is
subtraction modulo 2^32. -/
theorem timebaseCountsMilliseconds : Obligations.TimebaseCountsMilliseconds := by
  refine ⟨rfl, fun straps low s => ⟨powerOn straps low s, rfl, rfl⟩, fun s running => ?_,
    fun c s notTick notPowerOn => exec_keeps_timebase s c notTick notPowerOn, since_eq_mod,
    fun x seg now n lt => toNat_sub_ofNat now lt⟩
  refine ⟨tick s, exec_tick_of_running s running, rfl, fun wraps => ?_⟩
  have counts : (tick s).timebase = s.timebase + 1 := rfl
  rw [counts, wraps]; rfl

end Sys2Proof.Proofs
end

section
/-! PROOFS. What one step can do behind the Ring Port, said once: the events' work and the commands' bodies that a
step may run, whatever its frame, queue or reply does at the port. -/

namespace Sys2Proof.Machine

variable {s t u v : State}

/-! ### The part behind the port -/

/-- The part but for what the plumbing of a request touches: the Ring Port, the waiting requests, the level of
ENG_EN and the waiting commands. -/
def State.inner (s : State) : State :=
  { s with engEn := false, rp := State.reset.rp, pending := [], mu := { s.mu with requests := [] } }

/-- What carrying out a management command runs, one entry per command of the table of R190. -/
inductive CommandBody : (State → Answer) → Prop
  | readStatus (page : Byte) : CommandBody (doReadStatus page)
  | readConfig : CommandBody doReadConfig
  | readCounters (page : Byte) : CommandBody (doReadCounters page)
  | readProfile (p : Byte) : CommandBody (doReadProfile p)
  | readPhases (g table : Byte) : CommandBody (doReadPhases g table)
  | readHead (h : Byte) : CommandBody (doReadHead h)
  | readFaults (h : Byte) : CommandBody (doReadFaults h)
  | readResults (n : Byte) : CommandBody (doReadResults n)
  | peekResults (n : Byte) : CommandBody (doPeekResults n)
  | start (h p : Byte) (serial : Word32) : CommandBody (doStart h p serial)
  | abort (h : Byte) : CommandBody (doAbort h)
  | suspendHead (h : Byte) : CommandBody (doSuspendHead h)
  | resumeHead (h k : Byte) (cont : Bool) : CommandBody (doResumeHead h k cont)
  | clearHead (h : Byte) : CommandBody (doClearHead h)
  | clearFaults (h : Byte) (kinds : List Byte) : CommandBody (doClearFaults h kinds)
  | clearCoolantLatch (g : Byte) : CommandBody (doClearCoolantLatch g)
  | clearGenerator (g : Byte) : CommandBody (doClearGenerator g)
  | ackColdStart : CommandBody doAckColdStart
  | clearCounters : CommandBody doClearCounters
  | writeProfile (w : ProfileArg) : CommandBody (doWriteProfile w)
  | eraseProfile (p : Byte) (e : Option Word16) : CommandBody (doEraseProfile p e)
  | lockProfile (p : Byte) : CommandBody (doLockProfile p)
  | unlockProfile (p : Byte) : CommandBody (doUnlockProfile p)
  | writePhases (g i : Byte) (es : List Byte) (n : Byte) : CommandBody (doWritePhases g i es n)
  | loadPhases (g : Byte) : CommandBody (doLoadPhases g)
  | writeHeadConfig (w : HeadConfigArg) : CommandBody (doWriteHeadConfig w)
  | writeExclusions (ps : List (Byte × Byte)) : CommandBody (doWriteExclusions ps)
  | writePartConfig (w : PartConfigArg) : CommandBody (doWritePartConfig w)
  | writeFaultPolicy (ps : List (Byte × Byte)) : CommandBody (doWriteFaultPolicy ps)
  | disableHead (h : Byte) : CommandBody (doDisableHead h)
  | enableHead (h : Byte) : CommandBody (doEnableHead h)
  | resetPart : CommandBody doResetPart

/-- The work one step may do. -/
inductive Work : (State → State) → Prop
  | idle : Work id
  | powerOn (straps : BitVec 6) (low : Bool) : Work (powerOn straps low)
  | release (underWay : Bool) : Work (releaseRst underWay)
  | softReset : Work softReset
  | tick : Work tick
  | slot : Work slotExpiry
  | segmentTimer (h : HeadId) : Work (segmentExpiry h)
  | sampleTimer (h : HeadId) : Work (sampleExpiry h)
  | windowTimer (h : HeadId) : Work (windowExpiry h)
  | rescueLimit (g : GenId) : Work (rescueLimitExpiry g)
  | wakeTimer (g : GenId) : Work (wakeExpiry g)
  | statusTimer (g : GenId) : Work (statusExpiry g)
  | idleTimer (g : GenId) : Work (idleExpiry g)
  | frameTimer : Work interlockExpiry
  | sample (payload : List Byte) : Work (takeSample payload)
  | genstat (payload : List Byte) : Work (takeGenstat payload)
  | interlock (payload : List Byte) : Work (takeInterlock payload)
  | command {body : State → Answer} : CommandBody body → Work fun s => (body s).after

/-- Behind the port, `t` is `s` after some work. -/
def WorksTo (s t : State) : Prop := ∃ w u, Work w ∧ u.inner = s.inner ∧ t.inner = (w u).inner

/-- An event that does some work behind the port, whatever it does there. -/
def DoesWork (f : State → State) : Prop := ∀ s, WorksTo s (f s)

/-- Nothing happens behind the port. -/
theorem WorksTo.idle (e : t.inner = s.inner) : WorksTo s t := ⟨id, s, .idle, rfl, e⟩

theorem Work.doesWork {w : State → State} (h : Work w) : DoesWork w := fun s => ⟨w, s, h, rfl, rfl⟩

/-- What the plumbing does before the work plays no part. -/
theorem WorksTo.after (h : WorksTo u t) (e : u.inner = s.inner) : WorksTo s t := by
  obtain ⟨w, x, hw, hx, ht⟩ := h
  exact ⟨w, x, hw, hx.trans e, ht⟩

/-! ### Commands -/

/-- A body that may run as some command, or refuse. -/
def BodyDoesWork (body : State → Answer) : Prop := ∀ s, WorksTo s (body s).after

theorem CommandBody.doesWork {body : State → Answer} (h : CommandBody body) : BodyDoesWork body :=
  (Work.command h).doesWork

theorem withArgs_doesWork {α : Type} {read : Reader α} {args : List Byte} {f : α → State → Answer}
    (h : ∀ a, CommandBody (f a)) : BodyDoesWork (withArgs read args f) := by
  intro s
  unfold withArgs; split
  · exact (h _).doesWork s
  · exact .idle rfl

/-- The reply is the Ring Port's. -/
theorem serveOperator_doesWork {q : Request} {body : State → Answer} (h : BodyDoesWork body) :
    DoesWork (serveOperator q body) := h

/-- A request without the authority does nothing (R191). -/
theorem serveEngineer_doesWork {q : Request} {body : State → Answer} (h : BodyDoesWork body) :
    DoesWork (serveEngineer q body) := by
  intro s
  change WorksTo s (if engineer q s then body s else refuse .denied s).after
  split
  · exact h s
  · exact .idle rfl

/-- A queued request runs its command's body, or is refused (R190). -/
theorem carryOut_doesWork (q : Request) : DoesWork (carryOut q) := by
  have operator : ∀ {α : Type} {read : Reader α} {f : α → State → Answer}, (∀ a, CommandBody (f a)) →
      DoesWork (serveOperator q (withArgs read q.args f)) :=
    fun h => serveOperator_doesWork (withArgs_doesWork h)
  have engineer : ∀ {α : Type} {read : Reader α} {f : α → State → Answer}, (∀ a, CommandBody (f a)) →
      DoesWork (serveEngineer q (withArgs read q.args f)) :=
    fun h => serveEngineer_doesWork (withArgs_doesWork h)
  unfold carryOut
  split
  · exact operator .readStatus
  · exact operator fun _ => .readConfig
  · exact operator .readCounters
  · exact operator .readProfile
  · exact operator fun a => .readPhases a.1 a.2
  · exact operator .readHead
  · exact operator .readFaults
  · exact operator .readResults
  · exact operator .peekResults
  · exact operator fun a => .start a.1 a.2.1 a.2.2
  · exact operator .abort
  · exact operator .suspendHead
  · exact operator fun a => .resumeHead a.1 a.2.1 a.2.2
  · exact operator .clearHead
  · exact operator fun a => .clearFaults a.1 a.2
  · exact operator .clearCoolantLatch
  · exact operator .clearGenerator
  · exact operator fun _ => .ackColdStart
  · exact operator fun _ => .clearCounters
  · exact engineer .writeProfile
  · exact engineer fun a => .eraseProfile a.1 a.2
  · exact engineer fun a => .lockProfile a.1
  · exact engineer fun a => .unlockProfile a.1
  · exact engineer fun a => .writePhases a.1 a.2.1 a.2.2.1 a.2.2.2
  · exact engineer .loadPhases
  · exact engineer .writeHeadConfig
  · exact engineer .writeExclusions
  · exact engineer .writePartConfig
  · refine serveEngineer_doesWork fun s => ?_
    split
    · exact (CommandBody.writeFaultPolicy _).doesWork s
    · exact .idle rfl
  · exact engineer .disableHead
  · exact engineer .enableHead
  · exact engineer fun _ => .resetPart
  · exact serveOperator_doesWork fun s => .idle rfl

/-! ### The plumbing of a request and of a frame -/

theorem takeOldest_doesWork : DoesWork takeOldest := by
  intro s
  rcases takeOldest_cases s with ⟨-, e⟩ | ⟨q, rest, -, e⟩ <;> rw [e]
  · exact .idle rfl
  · exact (carryOut_doesWork q _).after rfl

theorem requestArrives_doesWork (q : Request) {take : State → State} (h : DoesWork take) :
    DoesWork (requestArrives q take) := by
  intro s
  rcases requestArrives_cases q take s with ⟨-, e⟩ | ⟨-, -, -, e⟩ | ⟨-, e⟩ <;> rw [e]
  · exact .idle rfl
  · exact h s
  · exact .idle rfl

theorem receive_doesWork (engEn : Bool) {f : State → State} (h : DoesWork f) :
    DoesWork (receive engEn f) := by
  intro s
  unfold receive; dsimp only; split
  · exact .idle rfl
  · exact (h _).after rfl

theorem commandArrives_doesWork (r : ReqHead) (code : Byte) (args : List Byte) {take : State → State}
    (h : DoesWork take) : DoesWork (commandArrives r code args take) :=
  receive_doesWork r.engEn fun t => by
    split
    · exact .idle rfl
    · split
      · exact .idle rfl
      · exact requestArrives_doesWork _ h t

theorem consume_doesWork (f : Received) : DoesWork (consume f) := by
  intro s
  unfold consume
  split
  · split
    · exact (Work.sample _).doesWork s
    · exact .idle rfl
  split
  · split
    · exact (Work.genstat _).doesWork s
    · exact .idle rfl
  split
  · split
    · exact (Work.interlock _).doesWork s
    · exact .idle rfl
  split
  · split
    · exact requestArrives_doesWork _ (carryOut_doesWork _) s
    · exact .idle rfl
  · exact .idle rfl

/-- A frame is counted, forwarded or consumed (R180). -/
theorem arriveFrame_doesWork (bytes : List Byte) : DoesWork (arriveFrame bytes) := by
  intro s
  unfold arriveFrame routeFrame
  split
  · exact .idle rfl
  split
  · exact .idle rfl
  split
  · exact .idle rfl
  split
  · exact .idle rfl
  split
  · exact .idle rfl
  split
  · exact .idle rfl
  split
  · exact consume_doesWork _ s
  · exact .idle rfl

/-- The end of a send is the soft reset, or the port's next frame and the taking of a request (R185, R192). -/
theorem sendEnd_doesWork : DoesWork sendEnd := by
  intro s
  unfold sendEnd nextFrame
  split
  · exact .idle rfl
  split
  · exact Work.softReset.doesWork s
  dsimp only
  split
  · exact (takeOldest_doesWork _).after rfl
  · exact .idle rfl

/-! ### Every command, and a step -/

/-- While RST_N is held low nothing happens (R189). -/
theorem live_doesWork {f : State → State} (h : DoesWork f) (e : live f s = .next t) : WorksTo s t := by
  obtain rfl : (if s.rstHeld then s else f s) = t := by injection e
  split
  · exact .idle rfl
  · exact h s

theorem operatorRow_doesWork {r : ReqHead} {code : Byte} {args : List Byte} {body : State → Answer}
    (h : CommandBody body) (e : operatorRow r code args body s = .next t) : WorksTo s t :=
  live_doesWork (commandArrives_doesWork _ _ _ (serveOperator_doesWork h.doesWork)) e

theorem engineerRow_doesWork {r : ReqHead} {code : Byte} {args : List Byte} {body : State → Answer}
    (h : CommandBody body) (e : engineerRow r code args body s = .next t) : WorksTo s t :=
  live_doesWork (commandArrives_doesWork _ _ _ (serveEngineer_doesWork h.doesWork)) e

/-- Whatever the command, what it does behind the port is one piece of work. -/
theorem exec_worksTo (c : Instr) (e : exec c s = .next t) : WorksTo s t := by
  cases c with
  | powerOnReset straps low =>
    obtain rfl : powerOn straps low s = t := by injection e
    exact (Work.powerOn straps low).doesWork s
  | rstNRelease f =>
    obtain rfl : releaseRst f s = t := by injection e
    exact (Work.release f).doesWork s
  | softReset =>
    refine live_doesWork (fun s => ?_) e
    unfold softResetEvent; split
    · exact Work.softReset.doesWork s
    · exact .idle rfl
  | frameArrival bytes engEn => exact live_doesWork (receive_doesWork engEn (arriveFrame_doesWork bytes)) e
  | portSendEnd engEn =>
    exact live_doesWork (fun s => (sendEnd_doesWork { s with engEn := engEn }).after rfl) e
  | unknownCommand r code args =>
    exact live_doesWork (commandArrives_doesWork r code args (carryOut_doesWork _)) e
  | slotExpiry => exact live_doesWork Work.slot.doesWork e
  | segmentTimerExpiry h => exact live_doesWork (Work.segmentTimer h).doesWork e
  | sampleTimerExpiry h => exact live_doesWork (Work.sampleTimer h).doesWork e
  | resumeWindowExpiry h => exact live_doesWork (Work.windowTimer h).doesWork e
  | rescueLimitExpiry g => exact live_doesWork (Work.rescueLimit g).doesWork e
  | wakeTimerExpiry g => exact live_doesWork (Work.wakeTimer g).doesWork e
  | statusTimerExpiry g => exact live_doesWork (Work.statusTimer g).doesWork e
  | idleTimerExpiry g => exact live_doesWork (Work.idleTimer g).doesWork e
  | interlockFrameTimerExpiry => exact live_doesWork Work.frameTimer.doesWork e
  | timebaseTick => exact live_doesWork Work.tick.doesWork e
  | readStatus r page => exact operatorRow_doesWork (.readStatus page) e
  | readConfig r => exact operatorRow_doesWork .readConfig e
  | readCounters r page => exact operatorRow_doesWork (.readCounters page) e
  | readProfile r p => exact operatorRow_doesWork (.readProfile p) e
  | readPhases r g table => exact operatorRow_doesWork (.readPhases g table) e
  | readHead r h => exact operatorRow_doesWork (.readHead h) e
  | readFaults r h => exact operatorRow_doesWork (.readFaults h) e
  | readResults r n => exact operatorRow_doesWork (.readResults n) e
  | peekResults r n => exact operatorRow_doesWork (.peekResults n) e
  | start r h p n => exact operatorRow_doesWork (.start h p n) e
  | abort r h => exact operatorRow_doesWork (.abort h) e
  | suspendHead r h => exact operatorRow_doesWork (.suspendHead h) e
  | resumeHead r h k cont => exact operatorRow_doesWork (.resumeHead h k cont) e
  | clearHead r h => exact operatorRow_doesWork (.clearHead h) e
  | clearFaults r h ks => exact operatorRow_doesWork (.clearFaults h ks) e
  | clearCoolantLatch r g => exact operatorRow_doesWork (.clearCoolantLatch g) e
  | clearGenerator r g => exact operatorRow_doesWork (.clearGenerator g) e
  | ackColdStart r => exact operatorRow_doesWork .ackColdStart e
  | clearCounters r => exact operatorRow_doesWork .clearCounters e
  | writeProfile r w => exact engineerRow_doesWork (.writeProfile w) e
  | eraseProfile r p x => exact engineerRow_doesWork (.eraseProfile p x) e
  | lockProfile r p x => exact engineerRow_doesWork (.lockProfile p) e
  | unlockProfile r p x => exact engineerRow_doesWork (.unlockProfile p) e
  | writePhases r g i es n => exact engineerRow_doesWork (.writePhases g i es n) e
  | loadPhases r g => exact engineerRow_doesWork (.loadPhases g) e
  | writeHeadConfig r w => exact engineerRow_doesWork (.writeHeadConfig w) e
  | writeExclusions r ps => exact engineerRow_doesWork (.writeExclusions ps) e
  | writePartConfig r w => exact engineerRow_doesWork (.writePartConfig w) e
  | writeFaultPolicy r ps => exact engineerRow_doesWork (.writeFaultPolicy ps) e
  | disableHead r h => exact engineerRow_doesWork (.disableHead h) e
  | enableHead r h => exact engineerRow_doesWork (.enableHead h) e
  | resetPart r => exact engineerRow_doesWork .resetPart e

/-- A step does one piece of work behind the port (log 1). -/
theorem step_worksTo (e : step s = .next t) : WorksTo s t := by
  unfold step at e
  split at e
  · obtain rfl : s = t := by injection e
    exact .idle rfl
  · exact (exec_worksTo _ e).after rfl

end Sys2Proof.Machine
end

section
/-! PROOFS. What the work of a step does to the joints: the head contexts, the profiles and the results. One
relation, `JointsContinue`, says what every event but a START, a profile write and a reset keeps; the laws of O54
and O60 both follow from it. -/

namespace Sys2Proof.Machine

variable {s t u : State} {c d : HeadContext}

/-! ### The part the joint laws speak of -/

/-- The head contexts, the profiles and the results. -/
def State.jointPart (s : State) : (HeadId → HeadContext) × Vector ProfileRecord 32 × List ResultRecord :=
  (fun h => (s.head h).ctx, s.profiles, s.results)

theorem jointPart_of_heads (heads : ∀ h, (t.head h).ctx = (s.head h).ctx) (profiles : t.profiles = s.profiles)
    (results : t.results = s.results) : t.jointPart = s.jointPart := by
  simp only [State.jointPart, heads, profiles, results]

/-- A head's change outside its context. -/
theorem jointPart_modHead {f : Head → Head} (h : HeadId) (e : ∀ x, (f x).ctx = x.ctx) :
    (s.modHead h f).jointPart = s.jointPart := by
  refine jointPart_of_heads (fun k => ?_) rfl rfl
  by_cases n : k = h
  · subst n; rw [State.head_modHead_same, e]
  · rw [State.head_modHead_other _ _ n]

section
variable (s)

@[simp] theorem jointPart_modHcu (h : HeadId) (f : Hcu → Hcu) : (s.modHcu h f).jointPart = s.jointPart :=
  jointPart_modHead h fun _ => rfl

@[simp] theorem jointPart_countDev (h : HeadId) (d : Deviation) : (s.countDev h d).jointPart = s.jointPart :=
  jointPart_modHead h fun _ => rfl

@[simp] theorem jointPart_modGen (g : GenId) (f : Generator → Generator) :
    (s.modGen g f).jointPart = s.jointPart := by cases g <;> rfl

@[simp] theorem jointPart_modGroup (g : GroupId) (f : Group → Group) :
    (s.modGroup g f).jointPart = s.jointPart := rfl

@[simp] theorem jointPart_modRp (f : RingPort → RingPort) : (s.modRp f).jointPart = s.jointPart := rfl

@[simp] theorem jointPart_modMu (f : Management → Management) : (s.modMu f).jointPart = s.jointPart := rfl

@[simp] theorem jointPart_countPort (c : PortCounter) : (s.countPort c).jointPart = s.jointPart := rfl

@[simp] theorem jointPart_notice (b : List Byte) : (s.notice b).jointPart = s.jointPart := by
  unfold State.notice; split <;> rfl

@[simp] theorem jointPart_noticeGenState (g : GenId) (left : GenState) :
    (s.noticeGenState g left).jointPart = s.jointPart := jointPart_notice s _

@[simp] theorem jointPart_noticeHeadFault (h : HeadId) (k : FaultKind) (a : FaultAction) (b : Bool)
    (st : HeadState) : (s.noticeHeadFault h k a b st).jointPart = s.jointPart := jointPart_notice s _

@[simp] theorem jointPart_noticeCoolantLatch (g : GroupId) :
    (s.noticeCoolantLatch g).jointPart = s.jointPart := jointPart_notice s _

@[simp] theorem jointPart_endRescue (g : GenId) : (endRescue g s).jointPart = s.jointPart := by
  obtain ⟨f, e⟩ := endRescue_gen_only s g
  rw [e, jointPart_modGen]

@[simp] theorem jointPart_dropRescue (h : HeadId) : (dropRescue h s).jointPart = s.jointPart := by
  refine jointPart_of_heads (fun k => ?_) (by simp) (by simp)
  by_cases n : k = h
  · subst n; rw [dropRescue_head_same]
  · rw [dropRescue_head_other _ n]

@[simp] theorem jointPart_startIdleIfUnheld (g : GenId) :
    (startIdleIfUnheld g s).jointPart = s.jointPart := by rw [startIdleIfUnheld_spec, jointPart_modGen]

@[simp] theorem jointPart_recordKind (h : HeadId) (k : FaultKind) :
    (recordKind h k s).jointPart = s.jointPart := jointPart_modHead h fun _ => rfl

@[simp] theorem jointPart_takeCapture (h : HeadId) (k : FaultKind) (a : FaultAction) :
    (takeCapture h k a s).jointPart = s.jointPart := jointPart_modHead h fun _ => rfl

end

/-! ### What the joint laws say of one head context -/

/-- The joint figures stay within their widths (R21). -/
def HeadContext.FiguresLegal (c : HeadContext) : Prop :=
  c.energy ≤ 4294967295 ∧ c.timeAboveFlow ≤ 4294967295 ∧ c.rescueCount ≤ 65535

/-- The same joint, its figures no smaller. -/
def HeadContext.SameJoint (c d : HeadContext) : Prop :=
  d.serial = c.serial ∧ d.profile = c.profile ∧ d.revision = c.revision ∧ d.jointStart = c.jointStart
    ∧ c.energy ≤ d.energy ∧ c.timeAboveFlow ≤ d.timeAboveFlow ∧ c.peak ≤ d.peak
    ∧ c.rescueCount ≤ d.rescueCount

/-- Figures within their widths grow within them, and the joint stays the same. -/
def HeadContext.Grows (c d : HeadContext) : Prop := c.FiguresLegal → d.FiguresLegal ∧ c.SameJoint d

theorem HeadContext.SameJoint.refl (c : HeadContext) : c.SameJoint c :=
  ⟨rfl, rfl, rfl, rfl, le_rfl, le_rfl, le_rfl, le_rfl⟩

theorem HeadContext.SameJoint.trans {c d e : HeadContext} (x : c.SameJoint d) (y : d.SameJoint e) :
    c.SameJoint e := by
  obtain ⟨x1, x2, x3, x4, x5, x6, x7, x8⟩ := x
  obtain ⟨y1, y2, y3, y4, y5, y6, y7, y8⟩ := y
  exact ⟨y1.trans x1, y2.trans x2, y3.trans x3, y4.trans x4, x5.trans y5, x6.trans y6, x7.trans y7,
    x8.trans y8⟩

/-- The law of a joint on one head context under the profiles: `State.JointLegal`. -/
def HeadContext.JointLegal (ps : Vector ProfileRecord 32) (c : HeadContext) : Prop :=
  c.reservation = c.state.holdsJoint
    ∧ (c.state.holdsJoint = true → ∃ (p : ProfileId) (r : Recipe), c.profile = some p ∧ ps[p].recipe = some r
        ∧ c.revision = ps[p].revision ∧ c.segIndex < r.segments.length
        ∧ ∀ q, c.suspendRec = some q → q.segIndex < r.segments.length)
    ∧ (c.state = .suspended → c.suspendRec ≠ none)
    ∧ (c.state = .running → c.entryOffset = 0 ∧ c.contEntry = false)

theorem jointLegal_iff (h : HeadId) : s.JointLegal h ↔ (s.head h).ctx.JointLegal s.profiles := Iff.rfl

/-! ### Continuing -/

/-- What a head's context goes through while no joint starts. -/
structure HeadContext.Continues (ps : Vector ProfileRecord 32) (c d : HeadContext) : Prop where
  grows : c.Grows d
  legal : c.JointLegal ps → d.JointLegal ps

theorem HeadContext.Continues.refl (ps : Vector ProfileRecord 32) (c : HeadContext) : c.Continues ps c :=
  ⟨fun l => ⟨l, .refl c⟩, id⟩

/-- What the part goes through while no joint starts and no profile is written: the joints' ends free as many
places of the Result Queue as their records take. -/
structure JointsContinue (s t : State) : Prop where
  profiles : t.profiles = s.profiles
  heads : ∀ h, (s.head h).ctx.Continues s.profiles (t.head h).ctx
  places : (∀ h, s.JointLegal h) → t.results.length + t.reservations ≤ s.results.length + s.reservations

theorem reservations_of_heads (e : ∀ h, (t.head h).ctx.reservation = (s.head h).ctx.reservation) :
    t.reservations = s.reservations := by
  simp only [State.reservations, e]

theorem JointsContinue.of_part (e : t.jointPart = s.jointPart) : JointsContinue s t := by
  simp only [State.jointPart, Prod.mk.injEq, funext_iff] at e
  obtain ⟨heads, profiles, results⟩ := e
  refine ⟨profiles, fun h => heads h ▸ .refl _ _, fun _ => ?_⟩
  rw [results, reservations_of_heads fun h => congrArg _ (heads h)]

theorem JointsContinue.refl (s : State) : JointsContinue s s := .of_part rfl

theorem JointsContinue.trans (a : JointsContinue s t) (b : JointsContinue t u) : JointsContinue s u where
  profiles := b.profiles.trans a.profiles
  heads h := by
    have bh := b.heads h
    rw [a.profiles] at bh
    refine ⟨fun l => ?_, fun l => bh.legal ((a.heads h).legal l)⟩
    obtain ⟨lt, x⟩ := (a.heads h).grows l
    obtain ⟨lu, y⟩ := bh.grows lt
    exact ⟨lu, x.trans y⟩
  places l := (b.places fun h => by
    rw [jointLegal_iff, a.profiles]; exact (a.heads h).legal (l h)).trans (a.places l)

/-- What stands before and after the joints' part plays no part. -/
theorem JointsContinue.then (a : JointsContinue s t) (e : u.jointPart = t.jointPart) : JointsContinue s u :=
  a.trans (.of_part e)

/-- Continuing head by head, with no reservation given or taken and no result added. -/
theorem JointsContinue.of_heads (profiles : t.profiles = s.profiles)
    (results : t.results.length ≤ s.results.length)
    (heads : ∀ h, (s.head h).ctx.Continues s.profiles (t.head h).ctx
      ∧ (t.head h).ctx.reservation = (s.head h).ctx.reservation) : JointsContinue s t :=
  ⟨profiles, fun h => (heads h).1, fun _ => by
    rw [reservations_of_heads fun h => (heads h).2]; omega⟩

/-- Continuing at one head, whose reservation stays. -/
theorem JointsContinue.of_modHead {f : Head → Head} {h : HeadId}
    (e : (s.head h).ctx.Continues s.profiles (f (s.head h)).ctx)
    (r : (f (s.head h)).ctx.reservation = (s.head h).ctx.reservation) : JointsContinue s (s.modHead h f) := by
  refine .of_heads rfl le_rfl fun k => ?_
  by_cases n : k = h
  · subst n; rw [State.head_modHead_same]; exact ⟨e, r⟩
  · rw [State.head_modHead_other _ _ n]; exact ⟨.refl _ _, rfl⟩

/-- Events one after the other, each continuing. -/
theorem JointsContinue.foldl {α : Type} {f : State → α → State} (each : ∀ s a, JointsContinue s (f s a))
    (l : List α) (s : State) : JointsContinue s (l.foldl f s) := by
  induction l generalizing s with
  | nil => exact .refl s
  | cons a l ih => exact (each s a).trans (ih _)

/-! ### Places -/

/-- Where one head's reservation goes, the count goes down by one. -/
theorem reservations_released {h : HeadId} (held : (s.head h).ctx.reservation = true)
    (gone : (t.head h).ctx.reservation = false) (other : ∀ k, k ≠ h → t.head k = s.head k) :
    t.reservations + 1 = s.reservations := by
  have nd : allHeads.Nodup := by decide
  have split : ∀ w : State, w.reservations =
      (allHeads.erase h).countP (fun k => (w.head k).ctx.reservation)
        + if (w.head h).ctx.reservation then 1 else 0 := fun w => by
    rw [State.reservations, (List.perm_cons_erase (mem_allHeads h)).countP_eq, List.countP_cons]
  have rest : (allHeads.erase h).countP (fun k => (t.head k).ctx.reservation) =
      (allHeads.erase h).countP fun k => (s.head k).ctx.reservation :=
    List.countP_congr fun k m => by rw [other k (nd.mem_erase_iff.1 m).1]
  rw [split t, split s, rest, held, gone]
  simp

/-! ### The moves of a head -/

/-- The suspend record taken names the segment the head stands in (R39). -/
theorem suspend_continues {h : HeadId} (held : s.holds h = true) (cause : SuspendCause) :
    JointsContinue s (suspend cause h s) := by
  obtain ⟨-, -, -, profiles, -, -, results, -⟩ := suspend_frame s cause h
  refine .of_heads profiles (by rw [results]) fun k => ?_
  by_cases n : k = h
  · subst n
    rw [suspend_head_same]
    refine ⟨⟨fun l => ⟨l, .refl _⟩, fun ⟨reserved, bound, _, _⟩ =>
      ⟨reserved.trans held, fun _ => ?_, fun _ => nofun, nofun⟩⟩, rfl⟩
    obtain ⟨p, r, hp, hr, hv, hi, -⟩ := bound held
    refine ⟨p, r, hp, hr, hv, hi, fun q e => ?_⟩
    obtain rfl := Option.some.inj e
    exact hi
  · rw [suspend_head_other s _ n]; exact ⟨.refl _ _, rfl⟩

/-- The record of a joint's end takes the place the joint had reserved (R36, R161). -/
theorem finishJoint_continues {h : HeadId} (held : s.holds h = true) (o : JointOutcome)
    (f : Option (List Criterion)) (k : Option FaultKind) : JointsContinue s (finishJoint o f k h s) := by
  obtain ⟨results, -, -, -, -, profiles, -⟩ := finishJoint_frame s o f k h
  refine ⟨profiles, fun j => ?_, fun legal => ?_⟩
  · by_cases n : j = h
    · subst n
      rw [finishJoint_head_same]
      have ended : ((s.head j).afterJoint o).ctx.state = .faulted
          ∨ ((s.head j).afterJoint o).ctx.state = .idle := by
        by_cases q : o = .fault <;> simp [Head.afterJoint, q]
      refine ⟨fun l => ⟨l, .refl _⟩, fun _ => ?_⟩
      rcases ended with e | e <;> exact ⟨by rw [e]; rfl, by rw [e]; nofun, by rw [e]; nofun, by rw [e]; nofun⟩
    · rw [finishJoint_head_other s _ _ _ n]; exact .refl _ _
  · have freed := reservations_released (s := s) (t := finishJoint o f k h s) (h := h) ((legal h).1.trans held)
      (by rw [finishJoint_head_same]; rfl) fun j n => finishJoint_head_other s o f k n
    rw [results, List.length_append, List.length_singleton]
    omega

/-- A fault ends the joint, suspends it or is recorded (R144, R145). -/
theorem takeFault_continues (h : HeadId) (k : FaultKind) (s : State) : JointsContinue s (takeFault h k s) := by
  have act : ∀ (t : State) (a : FaultAction), t.jointPart = s.jointPart → s.holds h = true →
      JointsContinue s (applyAction h k a t) := by
    intro t a e held
    have ctx : (t.head h).ctx = (s.head h).ctx := congrFun (congrArg Prod.fst e) h
    have held' : t.holds h = true := by rw [State.holds, ctx]; exact held
    refine (JointsContinue.of_part e).trans ?_
    rcases applyAction_cases t h k a with ⟨-, e⟩ | ⟨-, e⟩ | ⟨-, e⟩ <;> rw [e]
    · exact finishJoint_continues held' ..
    · refine .trans (.of_modHead ⟨fun l => ⟨l, .refl _⟩, id⟩ rfl) (suspend_continues ?_ _)
      rw [State.holds, State.head_modHead_same]; exact held'
    · exact .refl t
  rw [takeFault_eq]
  split
  · next held =>
    refine act _ _ ?_ held
    split <;> split <;> simp
  · exact .of_part (jointPart_recordKind s h k)

theorem entryTest_continues (h : HeadId) (s : State) : JointsContinue s (entryTest h s) := by
  unfold entryTest
  split
  · exact takeFault_continues ..
  split
  · exact .refl s
  · exact takeFault_continues ..

/-- The entry of a head that holds a joint (R29). -/
theorem enterSegment_continues {h : HeadId} (held : s.holds h = true) : JointsContinue s (enterSegment h s) := by
  cases e : s.segment h with
  | none => rw [enterSegment, e]; exact .refl s
  | some seg =>
    rw [enterSegment_eq s e]
    have entered : JointsContinue s (s.modHead h fun x => x.enter seg s.timebase s.threeSlots) := by
      refine .of_modHead ⟨fun l => ⟨l, .refl _⟩, fun ⟨reserved, bound, _, _⟩ => ?_⟩ rfl
      exact ⟨reserved.trans held, fun _ => bound held, nofun, fun _ => ⟨rfl, rfl⟩⟩
    dsimp only
    split <;> split
    · exact entered.trans (entryTest_continues ..)
    · exact (entered.then (jointPart_dropRescue ..)).trans (entryTest_continues ..)
    · exact entered
    · exact entered.then (jointPart_dropRescue ..)

theorem finishNormally_continues {h : HeadId} (held : s.holds h = true) :
    JointsContinue s (finishNormally h s) := by
  have ends : ∀ l : List Criterion, JointsContinue s
      (if l = [] then finishJoint .accept none none h s else finishJoint .reject (some l) none h s) := by
    intro l; split <;> exact finishJoint_continues held ..
  exact ends _

/-- Head `h` has left its segment (R30): the segment timer has stopped, the segment counts as completed, and the
head's rescue is over. -/
def leaveSegment (h : HeadId) (s : State) : State :=
  dropRescue h (s.modCtx h fun c => { c with segTimer := none, segsDone := c.segsDone + 1 })

@[simp] theorem leaveSegment_ctx (h : HeadId) (s : State) : ((leaveSegment h s).head h).ctx =
    { (s.head h).ctx with segTimer := none, segsDone := (s.head h).ctx.segsDone + 1 } := by
  simp [leaveSegment, State.modCtx]

/-- The exit of a segment, said once (R30): into the next segment of the recipe, or to the joint's normal end where
there is none. -/
theorem exitSegment_cases (h : HeadId) (s : State) :
    (∃ rc, s.recipe h = some rc ∧ (s.head h).ctx.segIndex + 1 < rc.segments.length
        ∧ exitSegment h s =
          enterSegment h ((leaveSegment h s).modCtx h fun c => { c with segIndex := c.segIndex + 1 }))
      ∨ ((∀ rc, s.recipe h = some rc → rc.segments.length ≤ (s.head h).ctx.segIndex + 1)
        ∧ exitSegment h s = finishNormally h (leaveSegment h s)) := by
  cases e : s.recipe h with
  | none => exact .inr ⟨nofun, by simp only [exitSegment, e, Nat.not_lt_zero, if_false, leaveSegment]⟩
  | some rc =>
    by_cases inside : (s.head h).ctx.segIndex + 1 < rc.segments.length
    · exact .inl ⟨rc, rfl, inside, by simp only [exitSegment, e, if_pos inside, leaveSegment]⟩
    · refine .inr ⟨fun r q => ?_, by simp only [exitSegment, e, if_neg inside, leaveSegment]⟩
      obtain rfl := Option.some.inj q
      omega

/-- The exit of a head that holds a joint: the next segment index is inside the bound profile (R30). -/
theorem exitSegment_continues {h : HeadId} (held : s.holds h = true) : JointsContinue s (exitSegment h s) := by
  have left : JointsContinue s (leaveSegment h s) :=
    (JointsContinue.of_modHead ⟨fun l => ⟨l, .refl _⟩, id⟩ rfl).then (jointPart_dropRescue ..)
  have held' : (leaveSegment h s).holds h = true := by rw [State.holds, leaveSegment_ctx]; exact held
  refine left.trans ?_
  rcases exitSegment_cases h s with ⟨rc, recipe, inside, e⟩ | ⟨-, e⟩ <;> rw [e]
  · have next : JointsContinue (leaveSegment h s)
        ((leaveSegment h s).modCtx h fun c => { c with segIndex := c.segIndex + 1 }) := by
      refine .of_modHead ⟨fun l => ⟨l, .refl _⟩, fun l => ?_⟩ rfl
      obtain ⟨reserved, bound, suspended, running⟩ := l
      refine ⟨reserved, fun _ => ?_, suspended, running⟩
      obtain ⟨p, r, hp, hr, hv, -, hq⟩ := bound held'
      refine ⟨p, r, hp, hr, hv, ?_, hq⟩
      rw [leaveSegment_ctx] at hp
      rw [left.profiles] at hr
      obtain rfl : rc = r := Option.some.inj (recipe.symm.trans (by rw [State.recipe, hp]; exact hr))
      dsimp only
      rw [leaveSegment_ctx]; exact inside
    refine next.trans (enterSegment_continues ?_)
    rw [State.holds, State.modCtx, State.head_modHead_same]; exact held'
  · exact finishNormally_continues held'

/-- The entry into a joint of a head that holds it (R27). -/
theorem enterJoint_continues {h : HeadId} (held : s.holds h = true) : JointsContinue s (enterJoint h s) := by
  have waits : JointsContinue s (s.modCtx h fun c => { c with state := .waitGen }) := by
    refine .of_modHead ⟨fun l => ⟨l, .refl _⟩, fun l => ?_⟩ rfl
    obtain ⟨reserved, bound, -, -⟩ := l
    exact ⟨reserved.trans held, fun _ => bound held, nofun, nofun⟩
  unfold enterJoint
  dsimp only
  split
  · exact waits
  split
  · refine (JointsContinue.of_part (jointPart_modGen ..)).trans (enterSegment_continues ?_)
    rw [State.holds, State.head_modGen]; exact held
  · exact waits
  · exact waits
  · exact waits.then (by simp [wakeGenerator])
  · exact waits.trans (takeFault_continues ..)

/-! ### The events of generators (chapter 6) -/

theorem faultGenerator_continues (g : GenId) (cause : GenCause) (s : State) :
    JointsContinue s (faultGenerator g cause s) := by
  unfold faultGenerator
  refine .trans (.of_part ?_) (.foldl (fun t h => ?_) _ _)
  · simp
  · unfold faultHeadOf
    dsimp only
    split
    · exact takeFault_continues ..
    · exact .refl t

theorem readyGenerator_continues (g : GenId) (s : State) : JointsContinue s (readyGenerator g s) := by
  unfold readyGenerator
  refine .then (.trans (.of_part (jointPart_modGen ..)) (.foldl (fun t h => ?_) _ _)) (by simp; rfl)
  unfold releaseWaiting
  dsimp only
  split
  · next waits => exact enterSegment_continues (by rw [State.holds, waits.2]; rfl)
  · exact .refl t

theorem applyReport_continues (g : GenId) (r : Reported) (s : State) : JointsContinue s (applyReport g r s) := by
  rcases applyReport_cases s g r with ⟨-, -, -, e⟩ | ⟨-, -, e⟩ | ⟨-, -, e⟩ | e <;> rw [e]
  · exact faultGenerator_continues ..
  · exact readyGenerator_continues ..
  · exact faultGenerator_continues ..
  · exact .refl s

/-- Energy is credited up to its width (R121). -/
theorem creditEnergy_continues (m : Genstat) (s : State) : JointsContinue s (creditEnergy m s) := by
  rcases creditEnergy_cases s m with e | ⟨h, d, -, -, e⟩ | ⟨h, x, -, -, -, -, e⟩ <;> rw [e]
  · exact .refl s
  · exact .of_part (jointPart_countDev ..)
  · refine .of_modHead ⟨fun l => ?_, id⟩ rfl
    obtain ⟨energy, time, rescues⟩ := l
    exact ⟨⟨Nat.min_le_right .., time, rescues⟩, rfl, rfl, rfl, rfl, le_min (Nat.le_add_right ..) energy,
      le_rfl, le_rfl, le_rfl⟩

theorem takeGenstat_continues (p : List Byte) (s : State) : JointsContinue s (takeGenstat p s) := by
  unfold takeGenstat
  split
  · exact .of_part (jointPart_countPort ..)
  split
  · exact .refl s
  · next m _ _ =>
    have recorded : JointsContinue s (recordReport m s) := .of_part (jointPart_modGen ..)
    exact (recorded.trans (creditEnergy_continues ..)).trans (applyReport_continues ..)

theorem wakeExpiry_continues (g : GenId) (s : State) : JointsContinue s (wakeExpiry g s) := by
  unfold wakeExpiry; split
  · exact faultGenerator_continues ..
  · exact .refl s

theorem statusExpiry_continues (g : GenId) (s : State) : JointsContinue s (statusExpiry g s) := by
  unfold statusExpiry; split
  · exact faultGenerator_continues ..
  · exact .refl s

theorem idleExpiry_continues (g : GenId) (s : State) : JointsContinue s (idleExpiry g s) := by
  unfold idleExpiry; split
  · exact .of_part (by simp)
  · exact .refl s

theorem rescueLimitExpiry_continues (g : GenId) (s : State) : JointsContinue s (rescueLimitExpiry g s) := by
  unfold rescueLimitExpiry
  split
  · split
    · exact .of_part (jointPart_modGen ..)
    · exact (JointsContinue.of_part (jointPart_endRescue ..)).trans (takeFault_continues ..)
  · exact .refl s

/-! ### The timers of heads (R30, R31, R33, R44) -/

theorem segmentExpiry_continues (h : HeadId) (s : State) : JointsContinue s (segmentExpiry h s) := by
  unfold segmentExpiry
  split
  · next expires =>
    have held : s.holds h = true := by rw [State.holds, expires.1]; rfl
    split
    · exact .refl s
    · exact takeFault_continues ..
    · exact exitSegment_continues held
    · refine .trans (.of_modHead ⟨fun l => ⟨l, .refl _⟩, id⟩ rfl) (exitSegment_continues ?_)
      rw [State.holds, State.head_modHead_same]; exact held
  · exact .refl s

theorem sampleExpiry_continues (h : HeadId) (s : State) : JointsContinue s (sampleExpiry h s) := by
  unfold sampleExpiry; split
  · exact takeFault_continues ..
  · exact .refl s

theorem windowExpiry_continues (h : HeadId) (s : State) : JointsContinue s (windowExpiry h s) := by
  unfold windowExpiry; split
  · exact takeFault_continues ..
  · exact .refl s

/-! ### Samples (chapter 3) -/

@[simp] theorem jointPart_soakTests (p : Params) (t tf : Nat) (h : HeadId) (s : State) :
    (soakTests p t tf h s).jointPart = s.jointPart := by
  unfold soakTests raiseRequest
  split
  · split
    · rfl
    · dsimp only
      split
      · exact (jointPart_countDev ..).trans (jointPart_modHead h fun _ => rfl)
      · exact jointPart_modHead h fun _ => rfl
  · split
    · exact jointPart_dropRescue ..
    · rfl

theorem runSample_continues (m : TakenSample) (p : Params) (running : (s.head m.head).ctx.state = .running) :
    JointsContinue s (runSample m p s) := by
  have steered : ∀ f : Head → Head, (∀ x, (f x).ctx = x.ctx) →
      (if m.quality.usable then s.modHead m.head f else s).jointPart = s.jointPart := fun f e => by
    split
    · exact jointPart_modHead _ e
    · rfl
  unfold runSample
  split
  · exact .refl s
  · next seg _ =>
    dsimp only
    have part := steered (fun x => { x with
      hcu := x.hcu.steer p seg x.ctx.rampOrigin (s.since x.ctx.segStart) }) fun _ => rfl
    generalize (if m.quality.usable then s.modHead m.head fun x => { x with
      hcu := x.hcu.steer p seg x.ctx.rampOrigin (s.since x.ctx.segStart) } else s) = t at part ⊢
    refine (JointsContinue.of_part part).trans ?_
    have ctx : (t.head m.head).ctx = (s.head m.head).ctx := congrFun (congrArg Prod.fst part) _
    split
    · exact .refl t
    split
    · exact .of_part (jointPart_soakTests ..)
    split
    · exact exitSegment_continues (by rw [State.holds, ctx, running]; rfl)
    · exact .refl t

/-- Peak and time above flow only rise (R57, R58). -/
theorem measured_continues (x : Head) (m : TakenSample) (p : Params) (inRamp : Bool) (now : Word32) (cap : Nat)
    (ps : Vector ProfileRecord 32) : x.ctx.Continues ps (x.measured m p inRamp now cap).ctx := by
  have peak : ∀ n tf, n ≤ peakAfter n tf := fun n tf => by
    cases tf <;> simp [peakAfter]
  have time : ∀ tf flow gap, x.ctx.timeAboveFlow ≤ 4294967295 →
      x.ctx.timeAboveFlow ≤ flowTimeAfter x.ctx.timeAboveFlow tf flow gap cap
        ∧ flowTimeAfter x.ctx.timeAboveFlow tf flow gap cap ≤ 4294967295 := fun tf flow gap l => by
    unfold flowTimeAfter
    split
    · split
      · unfold add32; omega
      · exact ⟨le_rfl, l⟩
    · exact ⟨le_rfl, l⟩
  refine ⟨fun l => ?_, id⟩
  obtain ⟨energy, flow, rescues⟩ := l
  refine ⟨⟨energy, (time _ _ _ flow).2, rescues⟩, rfl, rfl, rfl, rfl, le_rfl, (time _ _ _ flow).1, ?_, le_rfl⟩
  unfold Head.measured
  dsimp only
  split
  · exact peak ..
  · exact le_rfl

theorem processSample_continues (m : TakenSample) (p : Params) (s : State) :
    JointsContinue s (processSample m p s) := by
  have measured : JointsContinue s (s.modHead m.head fun x =>
      x.measured m p (s.inRamp m.head) s.timebase s.threeSlots) := .of_modHead (measured_continues ..) rfl
  unfold processSample
  dsimp only
  generalize (s.modHead m.head fun x => x.measured m p (s.inRamp m.head) s.timebase s.threeSlots) = t
    at measured ⊢
  refine measured.trans ?_
  split
  · exact takeFault_continues ..
  have coupled : JointsContinue t (t.modHead m.head fun x => x.coupled m t.threeSlots) :=
    .of_modHead ⟨fun l => ⟨l, .refl _⟩, id⟩ rfl
  refine coupled.trans ?_
  split
  · next running =>
    split
    · exact takeFault_continues ..
    · exact runSample_continues m p running
  · exact .refl _

theorem acceptSample_continues (m : TakenSample) (s : State) : JointsContinue s (acceptSample m s) := by
  have kept : (if m.quality = .weak then (keepSample m s).countDev m.head .weak
      else keepSample m s).jointPart = s.jointPart := by
    split <;> simp [keepSample]
  unfold acceptSample
  dsimp only
  generalize (if m.quality = .weak then (keepSample m s).countDev m.head .weak
      else keepSample m s) = t at kept ⊢
  refine (JointsContinue.of_part kept).trans ?_
  split
  · split
    · exact .refl t
    · exact processSample_continues ..
  · exact .refl t

theorem takeSample_continues (p : List Byte) (s : State) : JointsContinue s (takeSample p s) := by
  unfold takeSample
  split
  · exact .of_part (jointPart_countPort ..)
  unfold sequenceSample
  split
  · exact .of_part (jointPart_countDev ..)
  · exact .of_part (jointPart_countDev ..)
  · exact (JointsContinue.of_part (jointPart_countDev ..)).trans (acceptSample_continues ..)
  · exact acceptSample_continues ..

/-! ### Interlocks (chapter 7) -/

theorem releaseEarly_continues (h : HeadId) (s : State) : JointsContinue s (releaseEarly h s) :=
  (JointsContinue.of_modHead ⟨fun l => ⟨l, .refl _⟩, id⟩ rfl).then (jointPart_countDev ..)

theorem interlockLoss_continues (released : Bool) (h : HeadId) (s : State) :
    JointsContinue s (interlockLoss released h s) := by
  unfold interlockLoss
  split
  · split
    · split
      · exact .refl s
      · exact releaseEarly_continues ..
    · exact takeFault_continues ..
  · exact takeFault_continues ..
  · exact takeFault_continues ..
  · exact .refl s
  · exact .refl s
  · exact .refl s

theorem coolantLossHead_continues (s : State) (h : HeadId) : JointsContinue s (coolantLossHead s h) := by
  unfold coolantLossHead
  split
  · split
    · exact releaseEarly_continues ..
    · exact takeFault_continues ..
  · exact takeFault_continues ..
  · exact takeFault_continues ..
  · exact .refl s
  · exact .refl s
  · exact .refl s

theorem coolantLoss_continues (g : GroupId) (s : State) : JointsContinue s (coolantLoss g s) := by
  unfold coolantLoss
  refine .trans (.of_part ?_) (.foldl coolantLossHead_continues _ _)
  split <;> simp

theorem actOnLosses_continues (s0 : State) (lost : GroupId → Bool) (s : State) :
    JointsContinue s (actOnLosses s0 lost s) := by
  unfold actOnLosses
  refine .trans (.foldl (fun t g => ?_) _ _) (.foldl (fun t h => ?_) _ _)
  · split
    · exact coolantLoss_continues ..
    · exact .refl t
  · split
    · exact interlockLoss_continues ..
    · exact .refl t

theorem jointPart_withInterlocks (i : Interlocks) (s : State) :
    ({ s with interlocks := i } : State).jointPart = s.jointPart := rfl

theorem jointPart_showFrame (m : InterlockFrame) (s : State) : (showFrame m s).jointPart = s.jointPart := by
  refine jointPart_of_heads (fun h => ?_) (by simp [showFrame]) (by simp [showFrame])
  have shown : (showFrame m s).head h = (s.head h).showInputs m h :=
    State.head_modAllHeads s (fun h x => x.showInputs m h) h
  rw [shown]; rfl

theorem jointPart_dropAllInputs (s : State) : (dropAllInputs s).jointPart = s.jointPart := by
  refine jointPart_of_heads (fun h => ?_) (by simp [dropAllInputs]) (by simp [dropAllInputs])
  have dropped : (dropAllInputs s).head h = { s.head h with inputs := (s.head h).inputs.drop } :=
    State.head_modAllHeads s (fun _ x => { x with inputs := x.inputs.drop }) h
  rw [dropped]

theorem takeInterlock_continues (p : List Byte) (s : State) : JointsContinue s (takeInterlock p s) := by
  unfold takeInterlock
  split
  · exact .refl s
  · unfold takeInterlockFrame
    refine .trans (.of_part ?_) (actOnLosses_continues ..)
    rw [jointPart_showFrame, jointPart_withInterlocks]

theorem interlockExpiry_continues (s : State) : JointsContinue s (interlockExpiry s) := by
  unfold interlockExpiry
  split
  · refine .trans (.of_part ?_) (actOnLosses_continues ..)
    rw [jointPart_withInterlocks, jointPart_dropAllInputs]
  · exact .refl s

/-! ### The slot expiry (R74) -/

/-- A grant counts one rescue, up to its width (R98). -/
theorem grantRescue_continues (g : GenId) (h : HeadId) (s : State) : JointsContinue s (grantRescue g h s) := by
  unfold grantRescue
  refine .then (.of_modHead (h := h) (f := fun x => { x with
    rescueReq := false, ctx := { x.ctx with rescueCount := count16 x.ctx.rescueCount } })
    ⟨fun l => ?_, id⟩ rfl) (by simp)
  obtain ⟨energy, time, rescues⟩ := l
  exact ⟨⟨energy, time, Nat.min_le_right ..⟩, rfl, rfl, rfl, rfl, le_rfl, le_rfl, le_rfl,
    le_min (Nat.le_add_right ..) rescues⟩

theorem resolveRescue_continues (g : GenId) (s : State) : JointsContinue s (resolveRescue g s) := by
  rcases resolveRescue_cases g s with e | ⟨w, -, -, e⟩ | ⟨k, w, -, -, -, e⟩ <;> rw [e]
  · exact .refl s
  · exact grantRescue_continues ..
  · refine .trans (.of_part ?_) (grantRescue_continues ..)
    rw [jointPart_modHead, jointPart_modGen]
    exact fun _ => rfl

theorem serveGenerator_continues (g : GenId) (other : Option HeadId) (s : State) :
    JointsContinue s (serveGenerator g other s).1 := by
  refine (resolveRescue_continues g s).then ?_
  change (countBorrowed _ (resolveRescue g s)).jointPart = _
  unfold countBorrowed
  split <;> simp

theorem buildDrive_continues (g : GenId) (served : Option HeadId) (s : State) :
    JointsContinue s (buildDrive g served s) := by
  have power : ∀ h, JointsContinue s (powerEffects g h s) := fun h => by
    unfold powerEffects
    dsimp only
    refine .then ?_ (jointPart_modGen ..)
    have derated : JointsContinue s (if s.budgetLimits g h then
        (s.modCtx h fun c => { c with derated := true }).countDev h .derated else s) := by
      split
      · exact (JointsContinue.of_modHead ⟨fun l => ⟨l, .refl _⟩, id⟩ rfl).then (jointPart_countDev ..)
      · exact .refl s
    split
    · exact derated.trans (.of_modHead ⟨fun l => ⟨l, .refl _⟩, id⟩ rfl)
    · exact derated
  unfold buildDrive
  split
  · exact .refl s
  · dsimp only
    refine .then ?_ (jointPart_modRp ..)
    split
    · exact power _
    · exact .refl s

@[simp] theorem jointPart_advancePhase (g : GenId) (s : State) :
    (advancePhase g s).jointPart = s.jointPart := by
  unfold advancePhase
  dsimp only
  split
  · exact (jointPart_notice ..).trans (jointPart_modGen ..)
  · exact jointPart_modGen ..

theorem slotExpiry_continues (s : State) : JointsContinue s (slotExpiry s) := by
  unfold slotExpiry
  split
  · have advanced : JointsContinue s (advancePhase .b (advancePhase .a (restartSlot s))) :=
      .of_part (by rw [jointPart_advancePhase, jointPart_advancePhase]; rfl)
    exact (((advanced.trans (serveGenerator_continues ..)).trans (serveGenerator_continues ..)).trans
      (buildDrive_continues ..)).trans (buildDrive_continues ..)
  · exact .refl s

/-! ### The tick (R1) -/

theorem tick_continues (s : State) : JointsContinue s (tick s) := by
  refine .of_heads rfl le_rfl fun h => ?_
  have ticked : (tick s).head h = (s.head h).tick := by simp [tick, State.head]
  rw [ticked]
  exact ⟨⟨fun l => ⟨l, .refl _⟩, id⟩, rfl⟩

end Sys2Proof.Machine
end

section
/-! PROOFS. The profile checks of WRITE PROFILE as the law of a stored record, and what each piece of work of a step
does to the joints: every one but START, a profile write and a reset lets the joints continue. -/

namespace Sys2Proof.Machine

variable {s t u : State} {c d : HeadContext}

/-! ### What WRITE PROFILE accepts (R5, R12, R13) -/

/-- A present minimum is at most a present maximum (R13). -/
def Ordered (lo hi : Option Nat) : Prop := ∀ a b, lo = some a → hi = some b → a ≤ b

theorem minAboveMax_eq_false_iff (lo hi : Option Nat) : minAboveMax lo hi = false ↔ Ordered lo hi := by
  cases lo <;> cases hi <;> simp [minAboveMax, Ordered]

/-- A segment is clamped exactly where its kind has a layout. -/
theorem clamped_isSome (g : SegArg) : g.clamped.isSome = g.known := by cases g <;> rfl

/-- A clamped segment is legal exactly where its target is at most the maximum temperature (R6-R8, R12, R13). -/
theorem clamped_legal_iff {a : SegArg} {g : Segment} (e : a.clamped = some g) (m : Nat) :
    g.Legal m ↔ g.target ≤ m := by
  cases a <;> simp only [SegArg.clamped, Option.some.injEq, reduceCtorEq] at e <;> subst e <;>
    simp only [Segment.Legal, Segment.target, clampRange] <;> omega

/-- Segments of known kinds are all kept. -/
theorem length_clamped {l : List SegArg} (known : l.all SegArg.known = true) :
    (l.filterMap SegArg.clamped).length = l.length := by
  rw [List.length_filterMap_eq_countP, List.countP_eq_length]
  intro g m
  rw [clamped_isSome]; exact List.all_eq_true.1 known g m

/-- Checks 2 to 10 of R13 on the clamped request ask for a count that is right, segments of known kinds, a legal
record and ordered criteria. -/
theorem passes_iff (w : ProfileArg) : w.passes = true ↔
    w.segCount.toNat = w.segments.length ∧ w.segments.all SegArg.known = true ∧ w.clampedRecipe.Legal
      ∧ Ordered w.clampedRecipe.criteria.minPeak w.clampedRecipe.criteria.maxPeak
      ∧ Ordered w.clampedRecipe.criteria.minFlow w.clampedRecipe.criteria.maxFlow
      ∧ Ordered w.clampedRecipe.criteria.minEnergy w.clampedRecipe.criteria.maxEnergy := by
  have segs : w.clampedRecipe.segments = w.segments.filterMap SegArg.clamped := rfl
  have legal : ∀ g ∈ w.clampedRecipe.segments,
      (g.Legal w.clampedRecipe.params.maxTemp ↔ g.target ≤ w.clampedRecipe.params.maxTemp) := fun g m => by
    obtain ⟨a, -, e⟩ := List.mem_filterMap.1 (segs ▸ m)
    exact clamped_legal_iff e _
  have maxTemp : w.clampedRecipe.params.maxTemp ≤ 12000 := Nat.min_le_right ..
  have weight : 1 ≤ w.clampedRecipe.params.weight ∧ w.clampedRecipe.params.weight ≤ 16 := by
    simp only [ProfileArg.clampedRecipe, ProfileArg.clampedParams, clampRange]; omega
  have deficit : w.clampedRecipe.params.deficitBand ≤ 1000 := Nat.min_le_right ..
  simp only [ProfileArg.passes, Bool.and_eq_true, decide_eq_true_eq, Bool.not_eq_true', clamped_isSome,
    minAboveMax_eq_false_iff, List.all_eq_true, List.any_eq_true]
  constructor
  · rintro ⟨⟨⟨⟨⟨⟨⟨⟨⟨low, high, count⟩, known⟩, heats⟩, targets⟩, flow⟩, bands⟩, peak⟩, time⟩, energy⟩
    have length := length_clamped (List.all_eq_true.2 known)
    rw [← segs] at length
    exact ⟨count, known, ⟨by omega, by omega, heats, maxTemp, flow, weight.1, weight.2, deficit, bands,
      fun g m => (legal g m).2 (targets g m)⟩, peak, time, energy⟩
  · rintro ⟨count, known, ⟨low, high, heats, -, flow, -, -, -, bands, segments⟩, peak, time, energy⟩
    have length := length_clamped (List.all_eq_true.2 known)
    rw [← segs] at length
    exact ⟨⟨⟨⟨⟨⟨⟨⟨⟨by omega, by omega, count⟩, known⟩, heats⟩, fun g m => (legal g m).1 (segments g m)⟩,
      flow⟩, bands⟩, peak⟩, time⟩, energy⟩

/-! ### A step's effect on the joints -/

/-- What a step leaves of the joints' laws: they are kept, the figures stay in their widths, and a joint held before
and after is the same joint, its figures no smaller. -/
structure JointStep (s t : State) : Prop where
  legal : s.JointsLegal → t.JointsLegal
  figures : s.FiguresLegal → t.FiguresLegal
    ∧ ∀ h, s.holds h = true → t.holds h = true → (s.head h).ctx.SameJoint (t.head h).ctx

/-- The joints' part is all a step's effect on the joints rests on. -/
theorem JointsContinue.keepsLegal (a : JointsContinue s t) (l : s.JointsLegal) : t.JointsLegal := by
  obtain ⟨profiles, joints, places⟩ := l
  refine ⟨fun p r e => profiles p r (by rw [← e, State.profile_of_profiles a.profiles]), fun h => ?_,
    (a.places joints).trans places⟩
  rw [jointLegal_iff, a.profiles]
  exact (a.heads h).legal (joints h)

theorem JointsContinue.step (a : JointsContinue s t) : JointStep s t where
  legal := a.keepsLegal
  figures l := ⟨fun h => ((a.heads h).grows (l h)).1, fun h _ _ => ((a.heads h).grows (l h)).2⟩

/-- Joints that continue where the laws have been kept: for a START at head `h`, which held no joint, and for a
profile write, which touches no head. -/
theorem JointStep.of_opening {free : HeadId → Prop} (unheld : ∀ h, free h → s.holds h = false)
    (heads : ∀ h, ¬ free h → u.head h = s.head h) (figures : ∀ h, free h → (u.head h).ctx.FiguresLegal)
    (legal : s.JointsLegal → u.JointsLegal) (a : JointsContinue u t) : JointStep s t := by
  refine ⟨fun l => a.keepsLegal (legal l), fun l => ?_⟩
  have fits : ∀ h, (u.head h).ctx.FiguresLegal := fun h => by
    by_cases f : free h
    · exact figures h f
    · rw [heads h f]; exact l h
  refine ⟨fun h => ((a.heads h).grows (fits h)).1, fun h before _ => ?_⟩
  have same := ((a.heads h).grows (fits h)).2
  rwa [heads h fun f => by simp [unheld h f] at before] at same

/-! ### Resets -/

/-- A reset clears every joint (R24, R158, R171). -/
theorem JointStep.of_cleared
    (heads : ∀ h, ∃ st, st.holdsJoint = false ∧ (t.head h).ctx = { HeadContext.reset with state := st })
    (profiles : ∀ p r, (t.profile p).recipe = some r → (s.profile p).recipe = some r)
    (results : t.results = []) : JointStep s t := by
  have free : ∀ h, t.holds h = false ∧ (t.head h).ctx.reservation = false := fun h => by
    obtain ⟨st, n, e⟩ := heads h
    exact ⟨by rw [State.holds, e]; exact n, by rw [e]; rfl⟩
  refine ⟨fun l => ⟨fun p r e => l.1 p r (profiles p r e), fun h => ?_, ?_⟩,
    fun _ => ⟨fun h => ?_, fun h _ after => ?_⟩⟩
  · obtain ⟨st, n, e⟩ := heads h
    refine ⟨(free h).2.trans (free h).1.symm, fun b => ?_, fun b => ?_, fun b => ?_⟩
    · rw [(free h).1] at b; cases b
    all_goals
      rw [e] at b
      change st = _ at b
      rw [b] at n; cases n
  · have none : t.reservations = 0 := by simp [State.reservations, free]
    rw [results, none]; exact Nat.zero_le _
  · obtain ⟨st, -, e⟩ := heads h
    rw [e]; exact ⟨Nat.zero_le _, Nat.zero_le _, Nat.zero_le _⟩
  · rw [(free h).1] at after; cases after

theorem softReset_jointStep (s : State) : JointStep s (softReset s) := by
  refine .of_cleared (fun h => ?_) (fun _ _ => id) rfl
  have reset : (softReset s).head h = (s.head h).softReset := by simp [softReset, State.head]
  refine ⟨if (s.head h).cfg.enabled then .idle else .disabled, ?_, by rw [reset]; rfl⟩
  split <;> rfl

theorem powerOn_jointStep (straps : BitVec 6) (low : Bool) (s : State) : JointStep s (powerOn straps low s) := by
  refine .of_cleared (fun h => ⟨.idle, rfl, ?_⟩) (fun p r e => ?_) rfl
  · have reset : (powerOn straps low s).head h = Head.powerOn := by simp [powerOn, State.reset, State.head]
    rw [reset]; rfl
  · have empty : (powerOn straps low s).profile p = ⟨none, false, 0⟩ := by
      simp [powerOn, State.reset, State.profile]
    rw [empty] at e; cases e

/-! ### Profile writes (R11, R17-R19) -/

/-- A profile in use is one a joint is bound to (R15). -/
theorem inUse_eq_false_iff (p : ProfileId) :
    s.inUse p = false ↔ ∀ h, s.holds h = true → (s.head h).ctx.profile ≠ some p := by
  simp [State.inUse, mem_allHeads]

/-- A record written while it is not in use, or whose contents and revision stay, leaves every joint its own. -/
theorem modProfile_jointStep {p : ProfileId} {f : ProfileRecord → ProfileRecord}
    (stays : s.inUse p = false ∨ ((f (s.profile p)).recipe = (s.profile p).recipe
      ∧ (f (s.profile p)).revision = (s.profile p).revision))
    (legal : s.ProfilesLegal → ∀ r, (f (s.profile p)).recipe = some r → r.Legal) :
    JointStep s (s.modProfile p f) := by
  refine .of_opening (u := s.modProfile p f) (free := fun _ => False) nofun (fun _ _ => rfl) nofun
    (fun l => ?_) (.refl _)
  obtain ⟨profiles, joints, places⟩ := l
  refine ⟨fun q r e => ?_, fun h => ?_, places⟩
  · by_cases n : q = p
    · subst n
      rw [State.profile_modProfile_same] at e
      exact legal profiles r e
    · rw [State.profile_modProfile_other _ _ n] at e
      exact profiles q r e
  · obtain ⟨reserved, bound, suspended, running⟩ := joints h
    refine ⟨reserved, fun held => ?_, suspended, running⟩
    obtain ⟨q, r, hq, hr, hv, hi, hs⟩ := bound held
    refine ⟨q, r, hq, ?_, ?_, hi, hs⟩
    all_goals by_cases n : q = p
    · subst n
      rw [State.profile_modProfile_same, (stays.resolve_left fun i => (inUse_eq_false_iff q).1 i h held hq).1, hr]
    · rw [State.profile_modProfile_other _ _ n, hr]
    · subst n
      rw [State.profile_modProfile_same, (stays.resolve_left fun i => (inUse_eq_false_iff q).1 i h held hq).2]
      exact hv
    · rw [State.profile_modProfile_other _ _ n]; exact hv

/-! ### START (R25-R27) -/

/-- A START that finds a segment enters the joint as one that waits for its generator: the entry sets the state
either way. Without a segment a READY generator leaves the head as it is (log 24). -/
theorem enterJoint_cases (h : HeadId) (s : State) :
    enterJoint h s = enterJoint h (s.modCtx h fun c => { c with state := .waitGen })
      ∨ (s.segment h = none ∧ (enterJoint h s).jointPart = s.jointPart) := by
  let w := s.modCtx h fun c => { c with state := .waitGen }
  have again : w.modCtx h (fun c => { c with state := .waitGen }) = w := State.modHead_modHead s h ..
  have bound : (w.head h).cfg = (s.head h).cfg := by simp [w, State.modCtx]
  cases b : (s.head h).cfg.binding with
  | none => exact .inl (by simp only [enterJoint, b, bound, again, w])
  | some g =>
    have gen : (w.gen g).state = (s.gen g).state := by simp only [w, State.modCtx, State.gen_modHead]
    cases st : (s.gen g).state
    case ready =>
      let stop := fun x : State => x.modGen g fun y => { y with idleTimer := none }
      have es : enterJoint h s = enterSegment h (stop s) := by simp only [enterJoint, b, st, stop]
      have ew : enterJoint h w = enterSegment h (stop w) := by
        simp only [enterJoint, bound, b, gen, st, stop]
      have ss : (stop s).segment h = s.segment h := by
        simp only [stop, State.segment, State.recipe, State.head_modGen, State.profile_modGen]
      have sw : (stop w).segment h = s.segment h := by
        simp [stop, w, State.segment, State.recipe, State.modCtx]
      cases seg : s.segment h with
      | none =>
        refine .inr ⟨rfl, ?_⟩
        rw [es, enterSegment, ss, seg]; exact jointPart_modGen ..
      | some x =>
        refine .inl ?_
        change _ = enterJoint h w
        have swap : stop w = (stop s).modCtx h fun c => { c with state := .waitGen } := by
          cases g <;> rfl
        rw [es, ew, enterSegment_eq _ (ss.trans seg), enterSegment_eq _ (sw.trans seg), swap, State.modCtx,
          State.modHead_modHead]
        rfl
    all_goals exact .inl (by simp only [enterJoint, b, bound, again, gen, st, w])

/-- The joint a START prepares has figures of 0 (R26). -/
theorem prepared_figuresLegal (x : Head) (p : ProfileId) (v : Word16) (serial now : Word32) :
    (x.prepared p v serial now).ctx.FiguresLegal := ⟨Nat.zero_le _, Nat.zero_le _, Nat.zero_le _⟩

/-- It is bound to its profile at its revision, at the first segment, with a reservation (R26, R36). -/
theorem prepared_jointLegal {ps : Vector ProfileRecord 32} {p : ProfileId} {rc : Recipe}
    (recipe : ps[p].recipe = some rc) (some_segment : 1 ≤ rc.segments.length) (x : Head) (serial now : Word32) :
    HeadContext.JointLegal ps { (x.prepared p ps[p].revision serial now).ctx with state := .waitGen } :=
  ⟨rfl, fun _ => ⟨p, rc, rfl, recipe, rfl, some_segment, nofun⟩, nofun, nofun⟩

/-- A START of an IDLE head with a VALID profile and a free place (R25-R27, R36). -/
theorem startJoint_jointStep {h : HeadId} {p : ProfileId} (idle : (s.head h).ctx.state = .idle)
    (valid : (s.profile p).recipe.isSome) (room : s.results.length + s.reservations < 48) (serial : Word32) :
    JointStep s (startJoint h p serial s) := by
  obtain ⟨rc, recipe⟩ := Option.isSome_iff_exists.1 valid
  let a := s.modHead h fun x => x.prepared p (s.profile p).revision serial s.timebase
  let b := dropRescue h a
  let x := (s.head h).prepared p (s.profile p).revision serial s.timebase
  have own : (b.head h).ctx = x.ctx := by simp [b, a, x]
  have others : ∀ k, k ≠ h → b.head k = s.head k := fun k n => by simp [b, a, n]
  have profiles : b.profiles = s.profiles := by simp [b, a]
  have results : b.results = s.results := by simp [b, a]
  have unheld : s.holds h = false := by rw [State.holds, idle]; rfl
  have figures : x.ctx.FiguresLegal := prepared_figuresLegal ..
  have segment : b.segment h = rc.segments[0]? := by
    have hx : x.ctx.profile = some p ∧ x.ctx.segIndex = 0 := ⟨rfl, rfl⟩
    simp only [State.segment, State.recipe, own, hx, Option.bind_some, State.profile_of_profiles profiles, recipe]
  have opening : ∀ {v t : State}, (∀ k, k ≠ h → v.head k = b.head k) → (v.head h).ctx.FiguresLegal →
      (s.JointsLegal → v.JointsLegal) → JointsContinue v t → JointStep s t := fun hv fig legal cont =>
    .of_opening (free := fun k => k = h) (fun k e => e ▸ unheld) (fun k n => (hv k n).trans (others k n))
      (fun k e => e ▸ fig) legal cont
  change JointStep s (enterJoint h b)
  rcases enterJoint_cases h b with e | ⟨none, part⟩
  · rw [e]
    let v := b.modCtx h fun c => { c with state := .waitGen }
    have vown : (v.head h).ctx = { x.ctx with state := .waitGen } := by
      simp only [v, State.modCtx, State.head_modHead_same, own]
    have vother : ∀ k, k ≠ h → v.head k = b.head k := fun k n => State.head_modHead_other _ _ n
    have held : v.holds h = true := by rw [State.holds, vown]; rfl
    refine opening vother (by rw [vown]; exact figures) (fun l => ?_) (enterJoint_continues held)
    obtain ⟨legal, joints, -⟩ := l
    refine ⟨fun q r e => legal q r (by rw [← e, State.profile_of_profiles profiles.symm]; rfl), fun k => ?_, ?_⟩
    · by_cases n : k = h
      · subst n
        rw [jointLegal_iff, vown, show v.profiles = s.profiles from profiles]
        exact prepared_jointLegal recipe (legal p rc recipe).1 ..
      · rw [jointLegal_iff, vother k n, others k n, show v.profiles = s.profiles from profiles]
        exact joints k
    · have taken := reservations_released (s := v) (t := s) (h := h) (by rw [vown]; rfl)
        ((joints h).1.trans unheld) fun k n => ((vother k n).trans (others k n)).symm
      have stay : v.results = s.results := results
      rw [stay]; omega
  · refine opening (v := b) (fun _ _ => rfl) (by rw [own]; exact figures) (fun l => ?_) (.of_part part)
    have inside := (l.1 p rc recipe).1
    rw [segment, List.getElem?_eq_none_iff] at none
    omega

/-! ### Each command's effect on the joints -/

/-- Carrying out a command leaves the joints' laws. -/
def BodyJointStep (body : State → Answer) : Prop := ∀ s, JointStep s (body s).after

theorem JointStep.refl (s : State) : JointStep s s := (JointsContinue.refl s).step

theorem JointStep.of_part (e : t.jointPart = s.jointPart) : JointStep s t := (JointsContinue.of_part e).step

theorem withHead_jointStep {f : HeadId → State → Answer} (b : Byte) (each : ∀ h, BodyJointStep (f h)) :
    BodyJointStep (withHead b f) := by
  intro s
  unfold withHead; split
  · exact each _ s
  · exact .refl s

theorem withGen_jointStep {f : GenId → State → Answer} (b : Byte) (each : ∀ g, BodyJointStep (f g)) :
    BodyJointStep (withGen b f) := by
  intro s
  unfold withGen; split
  · exact each _ s
  · exact .refl s

theorem withProfile_jointStep {f : ProfileId → State → Answer} (b : Byte)
    (each : ∀ p, BodyJointStep (f p)) : BodyJointStep (withProfile b f) := by
  intro s
  unfold withProfile; split
  · exact each _ s
  · exact .refl s

/-- A change of state between states without a joint. -/
theorem modState_jointStep {h : HeadId} {f : Head → Head} {st : HeadState} (before : s.holds h = false)
    (after : st.holdsJoint = false) (ctx : ∀ x, (f x).ctx = { x.ctx with state := st }) :
    JointStep s (s.modHead h f) := by
  refine (JointsContinue.of_modHead ?_ (by rw [ctx])).step
  rw [ctx]
  refine ⟨fun l => ⟨l, .refl _⟩,
    fun l => ⟨l.1.trans (before.trans after.symm), fun b => ?_, fun b => ?_, fun b => ?_⟩⟩
  · rw [after] at b; cases b
  all_goals
    change st = _ at b
    subst b; cases after

theorem doStart_jointStep (hd prof : Byte) (serial : Word32) : BodyJointStep (doStart hd prof serial) := by
  intro s
  unfold doStart
  split
  · exact .refl s
  refine withHead_jointStep hd (fun h t => ?_) s
  split
  · exact .refl t
  next idle =>
  split
  · exact .refl t
  next p valid =>
  split
  · exact .refl t
  split
  · exact .refl t
  next room =>
  have isSome : (t.profile p).recipe.isSome := by
    unfold State.startProfile at valid
    split at valid
    · split at valid
      · next ok =>
        obtain rfl := Option.some.inj valid
        exact ok.1
      · cases valid
    · cases valid
  exact startJoint_jointStep (not_not.1 idle) isSome (Nat.not_le.1 room) serial

theorem doAbort_jointStep (hd : Byte) : BodyJointStep (doAbort hd) :=
  withHead_jointStep hd fun h t => by
    split
    · next held => exact (finishJoint_continues held ..).step
    · exact .refl t

theorem doSuspendHead_jointStep (hd : Byte) : BodyJointStep (doSuspendHead hd) :=
  withHead_jointStep hd fun h t => by
    split
    · next ok => exact (suspend_continues (by rcases ok with e | e <;> rw [State.holds, e] <;> rfl) _).step
    · exact .refl t

/-- A resume goes on at a segment of the suspend record's joint, not past the one it was suspended in (R42, R43). -/
theorem resumeJoint_continues {h : HeadId} {q : SuspendRecord} {k : Nat} {cont : Bool}
    (suspended : (s.head h).ctx.state = .suspended) (record : (s.head h).ctx.suspendRec = some q)
    (ok : resumeSegmentOk q k cont = true) : JointsContinue s (resumeJoint h q k cont s) := by
  have le : (if cont then q.segIndex else k) ≤ q.segIndex := by
    simp only [resumeSegmentOk, Bool.and_eq_true, decide_eq_true_eq] at ok
    split
    · exact le_rfl
    · exact ok.1
  have held : s.holds h = true := by rw [State.holds, suspended]; rfl
  refine .trans (.of_modHead ⟨fun l => ⟨l, .refl _⟩, fun l => ?_⟩ rfl) (enterJoint_continues ?_)
  · obtain ⟨reserved, bound, has, -⟩ := l
    refine ⟨reserved, fun _ => ?_, has, fun e => ?_⟩
    · obtain ⟨p, r, hp, hr, hv, -, hs⟩ := bound held
      exact ⟨p, r, hp, hr, hv, lt_of_le_of_lt le (hs q record), hs⟩
    · change (s.head h).ctx.state = _ at e
      rw [suspended] at e; cases e
  · rw [State.holds, State.head_modHead_same]; exact held

theorem doResumeHead_jointStep (hd k : Byte) (cont : Bool) : BodyJointStep (doResumeHead hd k cont) :=
  withHead_jointStep hd fun h t => by
    split
    · exact .refl t
    next suspended =>
    split
    · exact .refl t
    next q record =>
    split
    · exact .refl t
    next ok =>
    split
    · exact .refl t
    split
    · exact .refl t
    · exact (resumeJoint_continues (not_not.1 suspended) record (by simpa using ok)).step

theorem doClearHead_jointStep (hd : Byte) : BodyJointStep (doClearHead hd) :=
  withHead_jointStep hd fun h t => by
    split
    · exact .refl t
    next faulted =>
    split
    · exact .refl t
    · rw [accept_after]
      exact modState_jointStep (by rw [State.holds, not_not.1 faulted]; rfl) (st := .idle) rfl fun _ => rfl

theorem doDisableHead_jointStep (hd : Byte) : BodyJointStep (doDisableHead hd) :=
  withHead_jointStep hd fun h t => by
    split
    · exact .refl t
    next idle =>
    rw [accept_after]
    exact modState_jointStep (by rw [State.holds, not_not.1 idle]; rfl) (st := .disabled) rfl fun _ => rfl

theorem doEnableHead_jointStep (hd : Byte) : BodyJointStep (doEnableHead hd) :=
  withHead_jointStep hd fun h t => by
    split
    · exact .refl t
    next disabled =>
    rw [accept_after]
    exact modState_jointStep (by rw [State.holds, not_not.1 disabled]; rfl) (st := .idle) rfl fun _ => rfl

theorem doClearFaults_jointStep (hd : Byte) (kinds : List Byte) : BodyJointStep (doClearFaults hd kinds) :=
  withHead_jointStep hd fun h t => by
    split
    · exact .refl t
    · exact .of_part (jointPart_modHead h fun _ => rfl)

theorem doWriteHeadConfig_jointStep (w : HeadConfigArg) : BodyJointStep (doWriteHeadConfig w) :=
  withHead_jointStep w.head fun h t => by
    split
    · exact .refl t
    split
    · exact .refl t
    · exact .of_part (jointPart_modHead h fun _ => rfl)

theorem doClearCoolantLatch_jointStep (g : Byte) : BodyJointStep (doClearCoolantLatch g) := by
  intro s
  unfold doClearCoolantLatch
  split
  · exact .refl s
  split
  · exact .refl s
  · exact .of_part rfl

theorem doClearGenerator_jointStep (g : Byte) : BodyJointStep (doClearGenerator g) :=
  withGen_jointStep g fun g t => by
    split
    · exact .refl t
    split
    · exact .refl t
    · exact .of_part ((jointPart_noticeGenState ..).trans (jointPart_modGen ..))

theorem doClearCounters_jointStep : BodyJointStep doClearCounters := by
  refine fun s => .of_part (t := zeroCounters s) (jointPart_of_heads (fun h => ?_) (by simp [zeroCounters])
    (by simp [zeroCounters]))
  have zeroed : (zeroCounters s).heads =
      (s.modAllHeads fun _ x => { x with deviations := Vector.replicate 11 0 }).heads := by simp [zeroCounters]
  rw [State.head_of_heads zeroed, State.head_modAllHeads]

theorem doReadResults_jointStep (n : Byte) : BodyJointStep (doReadResults n) := by
  intro s
  unfold doReadResults
  split
  · exact .refl s
  · dsimp only [accept_after]
    refine (JointsContinue.of_heads (s := s) (t := { s with results := s.results.drop n.toNat }) rfl ?_
      fun h => ⟨.refl _ _, rfl⟩).step
    simp

theorem doWritePhases_jointStep (g i : Byte) (es : List Byte) (n : Byte) :
    BodyJointStep (doWritePhases g i es n) :=
  withGen_jointStep g fun g t => by
    split
    · exact .refl t
    split
    · exact .refl t
    split
    · exact .refl t
    · exact .of_part (jointPart_modGen ..)

theorem doLoadPhases_jointStep (g : Byte) : BodyJointStep (doLoadPhases g) :=
  withGen_jointStep g fun g t => by
    split
    · exact .refl t
    split
    · exact .refl t
    · exact .of_part (jointPart_modGen ..)

theorem doWriteExclusions_jointStep (ps : List (Byte × Byte)) : BodyJointStep (doWriteExclusions ps) := by
  intro s
  unfold doWriteExclusions
  split
  · exact .refl s
  dsimp only
  split
  · exact .refl s
  · exact .of_part rfl

@[simp] theorem jointPart_reconfigure (old : PartConfig) (g : GenId) (s : State) :
    (reconfigure old g s).jointPart = s.jointPart := by
  unfold reconfigure
  dsimp only
  split
  · exact jointPart_modGen ..
  · exact (jointPart_noticeGenState ..).trans (jointPart_modGen ..)

theorem doWritePartConfig_jointStep (w : PartConfigArg) : BodyJointStep (doWritePartConfig w) := by
  intro s
  unfold doWritePartConfig
  split
  · dsimp only
    split
    · exact .refl s
    split
    · exact .refl s
    · exact .of_part (by simp [writeConfig])
  · exact .refl s

theorem doWriteFaultPolicy_jointStep (ps : List (Byte × Byte)) : BodyJointStep (doWriteFaultPolicy ps) := by
  intro s
  unfold doWriteFaultPolicy
  split
  · exact .refl s
  · exact .of_part rfl

theorem doWriteProfile_jointStep (w : ProfileArg) : BodyJointStep (doWriteProfile w) :=
  withProfile_jointStep w.profile fun p t => by
    split
    · exact .refl t
    next passes =>
    split
    · exact .refl t
    split
    · exact .refl t
    next unused =>
    split
    · exact .of_part rfl
    dsimp only [accept_after]
    refine modProfile_jointStep (.inl (by simpa using unused)) fun _ r e => ?_
    obtain rfl := Option.some.inj e
    exact ((passes_iff w).1 (by simpa using passes)).2.2.1

theorem doEraseProfile_jointStep (p : Byte) (e : Option Word16) : BodyJointStep (doEraseProfile p e) :=
  withProfile_jointStep p fun p t => by
    split
    · exact .refl t
    split
    · exact .refl t
    next unused =>
    split
    · exact .of_part rfl
    · dsimp only [accept_after]
      exact modProfile_jointStep (.inl (by simpa using unused)) fun _ => nofun

theorem doLockProfile_jointStep (p : Byte) : BodyJointStep (doLockProfile p) :=
  withProfile_jointStep p fun p t => by
    dsimp only [accept_after]
    exact modProfile_jointStep (.inr ⟨rfl, rfl⟩) fun legal r e => legal p r e

theorem doUnlockProfile_jointStep (p : Byte) : BodyJointStep (doUnlockProfile p) :=
  withProfile_jointStep p fun p t => by
    split
    · exact .refl t
    · dsimp only [accept_after]
      exact modProfile_jointStep (.inr ⟨rfl, rfl⟩) fun legal r e => legal p r e

/-- Every command's body leaves the joints' laws. -/
theorem CommandBody.jointStep {body : State → Answer} (b : CommandBody body) : BodyJointStep body := by
  intro s
  cases b with
  | readStatus page => rw [doReadStatus_after]; exact .refl s
  | readConfig => exact .refl s
  | readCounters page => rw [doReadCounters_after]; exact .refl s
  | readProfile p => rw [doReadProfile_after]; exact .refl s
  | readPhases g table => rw [doReadPhases_after]; exact .refl s
  | readHead h => rw [doReadHead_after]; exact .refl s
  | readFaults h => rw [doReadFaults_after]; exact .refl s
  | readResults n => exact doReadResults_jointStep n s
  | peekResults n => rw [doPeekResults_after]; exact .refl s
  | start h p serial => exact doStart_jointStep h p serial s
  | abort h => exact doAbort_jointStep h s
  | suspendHead h => exact doSuspendHead_jointStep h s
  | resumeHead h k cont => exact doResumeHead_jointStep h k cont s
  | clearHead h => exact doClearHead_jointStep h s
  | clearFaults h kinds => exact doClearFaults_jointStep h kinds s
  | clearCoolantLatch g => exact doClearCoolantLatch_jointStep g s
  | clearGenerator g => exact doClearGenerator_jointStep g s
  | ackColdStart => exact .of_part rfl
  | clearCounters => exact doClearCounters_jointStep s
  | writeProfile w => exact doWriteProfile_jointStep w s
  | eraseProfile p e => exact doEraseProfile_jointStep p e s
  | lockProfile p => exact doLockProfile_jointStep p s
  | unlockProfile p => exact doUnlockProfile_jointStep p s
  | writePhases g i es n => exact doWritePhases_jointStep g i es n s
  | loadPhases g => exact doLoadPhases_jointStep g s
  | writeHeadConfig w => exact doWriteHeadConfig_jointStep w s
  | writeExclusions ps => exact doWriteExclusions_jointStep ps s
  | writePartConfig w => exact doWritePartConfig_jointStep w s
  | writeFaultPolicy ps => exact doWriteFaultPolicy_jointStep ps s
  | disableHead h => exact doDisableHead_jointStep h s
  | enableHead h => exact doEnableHead_jointStep h s
  | resetPart => exact .of_part rfl

/-! ### Every step -/

theorem releaseRst_jointStep (underWay : Bool) (s : State) : JointStep s (releaseRst underWay s) := by
  unfold releaseRst
  split
  · exact .of_part rfl
  · exact .refl s

/-- Every piece of work leaves the joints' laws. -/
theorem Work.jointStep {w : State → State} (h : Work w) (s : State) : JointStep s (w s) := by
  cases h with
  | idle => exact .refl s
  | powerOn straps low => exact powerOn_jointStep straps low s
  | release underWay => exact releaseRst_jointStep underWay s
  | softReset => exact softReset_jointStep s
  | tick => exact (tick_continues s).step
  | slot => exact (slotExpiry_continues s).step
  | segmentTimer h => exact (segmentExpiry_continues h s).step
  | sampleTimer h => exact (sampleExpiry_continues h s).step
  | windowTimer h => exact (windowExpiry_continues h s).step
  | rescueLimit g => exact (rescueLimitExpiry_continues g s).step
  | wakeTimer g => exact (wakeExpiry_continues g s).step
  | statusTimer g => exact (statusExpiry_continues g s).step
  | idleTimer g => exact (idleExpiry_continues g s).step
  | frameTimer => exact (interlockExpiry_continues s).step
  | sample payload => exact (takeSample_continues payload s).step
  | genstat payload => exact (takeGenstat_continues payload s).step
  | interlock payload => exact (takeInterlock_continues payload s).step
  | command b => exact b.jointStep s

/-- The joints' part lies behind the port. -/
theorem jointPart_of_inner (e : t.inner = s.inner) : t.jointPart = s.jointPart := by
  have part : ∀ u : State, u.jointPart = u.inner.jointPart := fun _ => rfl
  rw [part t, part s, e]

/-- What a step leaves of the joints' laws rests on the joints' part before and after it. -/
theorem JointStep.congr {s' t' : State} (a : JointStep s t) (before : s.jointPart = s'.jointPart)
    (after : t'.jointPart = t.jointPart) : JointStep s' t' := by
  have hs : ∀ h, (s.head h).ctx = (s'.head h).ctx := congrFun (congrArg Prod.fst before)
  have ht : ∀ h, (t'.head h).ctx = (t.head h).ctx := congrFun (congrArg Prod.fst after)
  refine ⟨fun l => (JointsContinue.of_part after).keepsLegal (a.legal ((JointsContinue.of_part before).keepsLegal l)),
    fun l => ?_⟩
  obtain ⟨fits, same⟩ := a.figures fun h => by rw [hs]; exact l h
  refine ⟨fun h => by rw [ht]; exact fits h, fun h => ?_⟩
  simpa only [State.holds, hs, ht] using same h

/-- Every step leaves the joints' laws. -/
theorem step_jointStep (e : step s = .next t) : JointStep s t := by
  obtain ⟨w, u, hw, before, after⟩ := step_worksTo e
  exact (hw.jointStep u).congr (jointPart_of_inner before) (jointPart_of_inner after)

end Sys2Proof.Machine
end

section
/-! PROOFS. The laws of joints that every step keeps. -/

namespace Sys2Proof.Proofs

open Sys2Proof.Machine

/-- Settles O54: a step is one piece of work behind the port, and each piece keeps the joint laws. -/
theorem stepKeepsJointsLegal : Obligations.StepKeepsJointsLegal :=
  fun _ _ legal e => (step_jointStep e).legal legal

/-- Settles O60: but for a START, which finds no joint at its head, and a reset, which leaves none, a step's work
only lets the figures grow. -/
theorem jointFiguresNeverDecrease : Obligations.JointFiguresNeverDecrease :=
  fun _ _ legal e => (step_jointStep e).figures legal

end Sys2Proof.Proofs
end

section
/-! PROOFS. The commands of the Profile Store and the reads of profiles and phase tables (R11-R20, R93), and the
power-on values. -/

namespace Sys2Proof.Machine

variable {s : State} {r : ReqHead}

/-! ### Answers at a row -/

/-- An operator row whose body accepts without effect is answered with its data. -/
theorem operatorRow_accepts (h : s.Takes r) {code : Byte} {args data : List Byte} {body : State → Answer}
    (e : body { s with engEn := r.engEn } = accept data { s with engEn := r.engEn }) :
    operatorRow r code args body s = .next (s.answered r code .ok data) := by
  rw [operatorRow_of_takes h, e]; rfl

/-- An operator row whose body refuses is answered with the refusal. -/
theorem operatorRow_refuses (h : s.Takes r) {code : Byte} {args : List Byte} {body : State → Answer}
    {st : Status} (e : body { s with engEn := r.engEn } = refuse st { s with engEn := r.engEn }) :
    operatorRow r code args body s = .next (s.answered r code st []) := by
  rw [operatorRow_of_takes h, e]; rfl

/-- An engineer row whose body refuses is answered with the refusal. -/
theorem engineerRow_refuses (h : s.TakesEngineer r) {code : Byte} {args : List Byte} {body : State → Answer}
    {st : Status} (e : body { s with engEn := r.engEn } = refuse st { s with engEn := r.engEn }) :
    engineerRow r code args body s = .next (s.answered r code st []) := by
  rw [engineerRow_of_takes h, e]; rfl

/-- An engineer row whose body changes profile `p` is answered with its data, the profile changed. -/
theorem engineerRow_writesProfile (h : s.TakesEngineer r) {code : Byte} {args data : List Byte}
    {body : State → Answer} {p : ProfileId} {f g : ProfileRecord → ProfileRecord}
    (e : body { s with engEn := r.engEn } = accept data (State.modProfile { s with engEn := r.engEn } p f))
    (same : f (s.profile p) = g (s.profile p)) :
    engineerRow r code args body s = .next ((s.modProfile p g).answered r code .ok data) := by
  rw [engineerRow_of_takes h, e]
  simp only [State.profile] at same
  simp only [State.modProfile, same]; rfl

/-- A row whose expected revision is stale is answered with the current revision (R16). -/
theorem engineerRow_stale (h : s.TakesEngineer r) {code : Byte} {args : List Byte} {body : State → Answer}
    {p : ProfileId} (e : body { s with engEn := r.engEn } = refuseStale p { s with engEn := r.engEn }) :
    engineerRow r code args body s = .next (s.answered r code .stale (enc16 (s.profile p).revision)) := by
  rw [engineerRow_of_takes h, e]; rfl

/-! ### The checks of a profile command (R14, R16) -/

theorem staleFor_of_differs {e : Option Word16} {x : ProfileRecord} (h : ∃ v, e = some v ∧ v ≠ x.revision) :
    staleFor e x = true := by
  obtain ⟨v, rfl, n⟩ := h
  simpa [staleFor] using n

theorem staleFor_of_agrees {e : Option Word16} {x : ProfileRecord} (h : e = none ∨ e = some x.revision) :
    staleFor e x = false := by
  rcases h with rfl | rfl <;> simp [staleFor]

end Sys2Proof.Machine

namespace Sys2Proof.Proofs

open Sys2Proof.Machine

/-- Settles O30: the request's checks are `ProfileArg.passes`, which `passes_iff` says as the law of a record; the
later checks stand in the order of the command's branches. -/
theorem writeProfileStoresClampedRecord : Obligations.WriteProfileStoresClampedRecord := by
  intro s r w takes rc ordered fits
  have clamped : rc = w.clampedRecipe := rfl
  have checks : fits ↔ w.profile.toNat < 32 ∧ w.passes = true := by
    rw [passes_iff]; rfl
  let u : State := { s with engEn := r.engEn }
  refine ⟨fun unfit => ?_, fun p named fit => ?_⟩
  · refine engineerRow_refuses takes ?_
    by_cases out : 32 ≤ w.profile.toNat
    · exact withProfile_none out ..
    · have fails : w.passes = false := by
        rw [← Bool.not_eq_true]; exact fun ok => unfit (checks.2 ⟨Nat.not_le.1 out, ok⟩)
      have num : w.profile = byte (⟨w.profile.toNat, Nat.not_le.1 out⟩ : ProfileId).val := by simp [byte]
      unfold doWriteProfile
      rw [num, withProfile_byte, fails]; rfl
  · have body : doWriteProfile w u = withProfile (byte p.val) _ u := congrArg (withProfile · _ u) named
    have body := body.trans (withProfile_byte ..)
    have passed := body.trans (if_neg (by simp [(checks.1 fit).2]))
    refine ⟨fun locked => ?_, fun free used => ?_, fun free unused stale => ?_, fun free unused agrees => ?_⟩
    · exact engineerRow_refuses takes (passed.trans (if_pos locked))
    all_goals have unlocked := passed.trans (if_neg (Bool.eq_false_iff.1 free))
    · exact engineerRow_refuses takes (unlocked.trans (if_pos used))
    all_goals have idle := unlocked.trans (if_neg (Bool.eq_false_iff.1 unused))
    · exact engineerRow_stale takes (idle.trans (if_pos (staleFor_of_differs stale)))
    · refine engineerRow_writesProfile takes (f := fun x => x.written w.clampedRecipe)
        ((idle.trans (if_neg (Bool.eq_false_iff.1 (staleFor_of_agrees agrees)))).trans ?_) (by rw [clamped]; rfl)
      dsimp only
      rw [State.profile_modProfile_same, clamped]; rfl

/-- Settles O31: each command's branches in the order of its checks. -/
theorem eraseAndLocksChangeOneRecord : Obligations.EraseAndLocksChangeOneRecord := by
  intro s r e takes
  refine ⟨fun b out => ?_, fun p => ?_⟩
  · have none := fun f => withProfile_none out f { s with engEn := r.engEn }
    exact ⟨engineerRow_refuses takes (none _), engineerRow_refuses takes (none _),
      engineerRow_refuses takes (none _)⟩
  let u : State := { s with engEn := r.engEn }
  have erase : doEraseProfile (byte p.val) e u = _ := withProfile_byte ..
  have lock : doLockProfile (byte p.val) u = _ := withProfile_byte ..
  have unlock : doUnlockProfile (byte p.val) u = _ := withProfile_byte ..
  refine ⟨fun locked => ?_, fun free used => ?_, fun free unused stale => ?_, fun free unused agrees => ?_, ?_,
    fun used => ?_, fun unused => ?_⟩
  · exact engineerRow_refuses takes (erase.trans (if_pos locked))
  · exact engineerRow_refuses takes ((erase.trans (if_neg (Bool.eq_false_iff.1 free))).trans (if_pos used))
  · exact engineerRow_stale takes (((erase.trans (if_neg (Bool.eq_false_iff.1 free))).trans
      (if_neg (Bool.eq_false_iff.1 unused))).trans (if_pos (staleFor_of_differs stale)))
  · refine engineerRow_writesProfile takes (f := fun x => { x with recipe := none, revision := x.revision + 1 })
      ((((erase.trans (if_neg (Bool.eq_false_iff.1 free))).trans (if_neg (Bool.eq_false_iff.1 unused))).trans
        (if_neg (Bool.eq_false_iff.1 (staleFor_of_agrees agrees)))).trans ?_) (by rw [free])
    dsimp only
    rw [State.profile_modProfile_same]; rfl
  · refine engineerRow_writesProfile takes (f := fun x => { x with locked := true }) (lock.trans ?_) rfl
    dsimp only
    rw [State.profile_modProfile_same]; rfl
  · exact engineerRow_refuses takes (unlock.trans (if_pos used))
  · refine engineerRow_writesProfile takes (f := fun x => { x with locked := false })
      ((unlock.trans (if_neg (Bool.eq_false_iff.1 unused))).trans ?_) rfl
    dsimp only
    rw [State.profile_modProfile_same]; rfl

/-- Settles O17: both reads answer from the state they find, and a byte that names no profile, generator or table is
refused. -/
theorem profileAndPhaseReadsKeepState : Obligations.ProfileAndPhaseReadsKeepState := by
  intro s r takes
  let u : State := { s with engEn := r.engEn }
  have read : ∀ p : ProfileId, doReadProfile (byte p.val) u = accept (s.profile p).bytes u :=
    fun p => withProfile_byte ..
  refine ⟨fun p empty => ?_, fun p q valid => ?_, fun b out => ?_, fun g => ⟨?_, ?_⟩, fun g t out => ?_⟩
  · refine operatorRow_accepts takes ((read p).trans ?_)
    rw [ProfileRecord.bytes, empty]
    exact congrArg (accept · u) (List.append_nil _)
  · refine operatorRow_accepts takes ((read p).trans ?_)
    rw [ProfileRecord.bytes, valid]; rfl
  · exact operatorRow_refuses takes (withProfile_none out ..)
  · exact operatorRow_accepts takes ((withGen_genCode g ..).trans rfl)
  · exact operatorRow_accepts takes ((withGen_genCode g ..).trans rfl)
  · refine operatorRow_refuses takes ?_
    by_cases gen : 2 ≤ g.toNat
    · exact withGen_none gen ..
    have table := out.resolve_left gen
    have t0 : t ≠ 0 := by rintro rfl; simp at table
    have t1 : t ≠ 1 := by rintro rfl; simp at table
    unfold doReadPhases withGen
    split
    · simp only [if_neg t0, if_neg t1]
    · rfl

/-- Settles O5: each field of `State.reset` is the table's value. -/
theorem resetGivesPowerOnValues : Obligations.ResetGivesPowerOnValues := by
  have heads : ∀ h, State.reset.head h = Head.powerOn := fun h => by simp [State.reset, State.head]
  have gens : ∀ g, State.reset.gen g = Generator.powerOn := fun g => by cases g <;> rfl
  have free : State.reset.reservations = 0 := by simp [State.reservations, heads, Head.powerOn, HeadContext.reset]
  have fine : State.reset.faultN = true := by
    simp only [State.faultN, heads]; rfl
  refine ⟨rfl, rfl, rfl, rfl, rfl, fun k => by cases k <;> exact ⟨rfl, rfl⟩, fun p => ?_, fun h => ?_, fun g => ?_,
    rfl, rfl, rfl, fun g => ?_, rfl, rfl, rfl, free, fine, rfl, rfl, rfl, rfl, rfl, fun c => ?_⟩
  · simp [State.reset, State.profile]
  · rw [heads]
    refine ⟨rfl, rfl, rfl, rfl, fun d => ?_, rfl, rfl⟩
    simp [Head.powerOn]
  · rw [gens]
    refine ⟨rfl, rfl, rfl, rfl, rfl, rfl, rfl, rfl, rfl, rfl, rfl, rfl, fun i => ?_, rfl, rfl, rfl, rfl, rfl⟩
    simp [Generator.powerOn, PhaseTable.empty]
  · simp [State.reset, State.group, Input.reset]
  · simp [State.reset]

end Sys2Proof.Proofs
end

section
/-! PROOFS. A joint's end, a fault taken whole and the exit of a segment, as the statements say them (R30, R35,
R144, R145). -/

namespace Sys2Proof.Machine

variable {s t : State} {h : HeadId}

/-! ### The end of a joint (R35) -/

/-- A notice changes the Ring Port alone. -/
theorem State.notice_eq (s : State) (b : List Byte) : s.notice b = { s with rp := s.offered s.rp b } := by
  unfold State.notice State.offered; split <;> rfl

/-- The heads that hold a generator after head `h`'s joint has ended are the others that held it. -/
theorem genHeld_of_ended {g : GenId} (ended : t.holds h = false) (others : ∀ k, k ≠ h → t.head k = s.head k) :
    t.genHeld g = s.heldByOther g h := by
  unfold State.genHeld State.heldByOther
  refine congrArg allHeads.any (funext fun k => ?_)
  by_cases n : k = h
  · subst n; simp [ended]
  · have other : (k != h) = true := bne_iff_ne.2 n
    rw [other, Bool.true_and, State.holds, State.holds, others k n]

/-- A joint's end on a generator: the head's rescue ends, and the idle timer starts where it was the last (R116). -/
theorem finishJoint_gen (s : State) (o : JointOutcome) (f : Option (List Criterion)) (k : Option FaultKind)
    (h : HeadId) (g : GenId) :
    (finishJoint o f k h s).gen g = (s.gen g).afterEnd h (s.mu.config.mode g)
      ((s.head h).cfg.binding == some g) (s.heldByOther g h) s.mu.config.idleDelay := by
  let m : State := State.noticeJointEnd
    ({ s.modHead h (fun x => x.afterJoint o) with
        results := s.results ++ [s.resultRecord h o f k], gens := (endRescueOf h s).gens } : State) h o k
  have head : ∀ j, m.head j = (s.modHead h fun x => x.afterJoint o).head j := fun j => State.head_notice ..
  have own : m.head h = (s.head h).afterJoint o := by rw [head, State.head_modHead_same]
  have others : ∀ j, j ≠ h → m.head j = s.head j := fun j n => by rw [head, State.head_modHead_other _ _ n]
  have gen : m.gen g = (s.gen g).afterEnd h (s.mu.config.mode g) false false 0 :=
    (State.gen_notice ..).trans ((endRescueOf_spec s h).1 g)
  have mu : m.mu = s.mu := State.notice_mu ..
  have ended : m.holds h = false := by
    rw [State.holds, own, Head.afterJoint]
    dsimp only
    split <;> rfl
  rw [finishJoint_eq, (releaseGenerator_spec _ h).2 g]
  change (if ((m.head h).cfg.binding == some g) && (m.gen g).state == .ready && !m.genHeld g then
    { m.gen g with idleTimer := some m.mu.config.idleDelay } else m.gen g) = _
  have state : (m.gen g).state = (s.gen g).state := by
    rw [gen]; unfold Generator.afterEnd; dsimp only; split <;> split <;> rfl
  have cfg : (m.head h).cfg = (s.head h).cfg := by rw [own]; rfl
  rw [genHeld_of_ended ended others, state, gen, mu, cfg]
  rfl

/-- The JOINT_END notice, with the counts as the end leaves them (R170). -/
theorem finishJoint_rp (s : State) (o : JointOutcome) (f : Option (List Criterion)) (k : Option FaultKind)
    (h : HeadId) : (finishJoint o f k h s).rp = s.offered s.rp
      (4 :: le32 (s.head h).ctx.serial.toNat ++ [byte h.val, o.code]
        ++ optBytes (fun k => [byte (FaultKind.idx k).val]) k
        ++ [byte (finishJoint o f k h s).results.length, byte (finishJoint o f k h s).reservations,
          s.slots.number]) := by
  let m : State :=
    { s.modHead h (fun x => x.afterJoint o) with
        results := s.results ++ [s.resultRecord h o f k], gens := (endRescueOf h s).gens }
  have heads : ∀ j, (finishJoint o f k h s).head j = m.head j := fun j => by
    rw [finishJoint_eq, (releaseGenerator_spec _ h).1]
    exact State.head_notice ..
  have results : (finishJoint o f k h s).results = m.results := (finishJoint_frame s o f k h).1
  have count : (finishJoint o f k h s).reservations = m.reservations :=
    reservations_of_heads fun j => by rw [heads]
  have serial : (m.head h).ctx.serial = (s.head h).ctx.serial := by
    rw [← heads, finishJoint_head_same]; rfl
  have ring : (finishJoint o f k h s).rp = (m.noticeJointEnd h o k).rp := by
    rw [finishJoint_eq, (releaseGenerator_spec _ h).1]
  rw [ring, results, count, State.noticeJointEnd, State.notice_rp, serial]
  rfl

/-- The end of a joint, as the statements say it (R35). -/
theorem finishJoint_ended (s : State) (o : JointOutcome) (f : Option (List Criterion)) (k : Option FaultKind)
    (h : HeadId) : JointEnded h o f k s.rp s (finishJoint o f k h s) := by
  have own := finishJoint_head_same s o f k h
  exact ⟨(finishJoint_frame s o f k h).1, by rw [own]; rfl, by rw [own]; rfl, by rw [own]; rfl,
    finishJoint_gen s o f k h, finishJoint_rp s o f k h, by rw [own]; exact ⟨rfl, rfl, rfl⟩⟩

/-- What a joint's end keeps. -/
theorem finishJoint_others (s : State) (o : JointOutcome) (f : Option (List Criterion)) (k : Option FaultKind)
    (h : HeadId) : OthersKept h s (finishJoint o f k h s) := by
  obtain ⟨-, timebase, held, eng, mu, profiles, slots, interlocks, pending⟩ := finishJoint_frame s o f k h
  exact ⟨fun j n => finishJoint_head_other s o f k n, profiles, mu, slots, interlocks, timebase, held, eng, pending⟩

theorem OthersKept.trans {u : State} (a : OthersKept h s u) (b : OthersKept h u t) : OthersKept h s t := by
  obtain ⟨heads, profiles, mu, slots, interlocks, timebase, held, eng, pending⟩ := a
  obtain ⟨heads', profiles', mu', slots', interlocks', timebase', held', eng', pending'⟩ := b
  exact ⟨fun k n => (heads' k n).trans (heads k n), profiles'.trans profiles, mu'.trans mu, slots'.trans slots,
    interlocks'.trans interlocks, timebase'.trans timebase, held'.trans held, eng'.trans eng,
    pending'.trans pending⟩

/-- A joint's end is the end of the joint as it stood at an earlier state, where between the two the head's joint,
its HCU, configuration, counters and inputs and the rest of the part stay, and the generators but for the head's
place. -/
theorem JointEnded.of_before {u : State} {o : JointOutcome} {f : Option (List Criterion)} {k : Option FaultKind}
    {rp : RingPort} (others : OthersKept h s u)
    (own : ∃ fr req, u.head h = { s.head h with fr := fr, rescueReq := req })
    (results : u.results = s.results) (station : u.rp.station = s.rp.station)
    (gens : ∀ g b held d, (u.gen g).afterEnd h (s.mu.config.mode g) b held d =
      (s.gen g).afterEnd h (s.mu.config.mode g) b held d)
    (e : JointEnded h o f k rp u t) : JointEnded h o f k rp s t := by
  obtain ⟨record, ctx, hcu, request, ended, ring, kept⟩ := e
  obtain ⟨fr, req, own⟩ := own
  obtain ⟨clock, -, -, -⟩ := others.clock
  have held : ∀ g, u.heldByOther g h = s.heldByOther g h := fun g => by
    unfold State.heldByOther
    refine congrArg allHeads.any (funext fun j => ?_)
    by_cases n : j = h
    · subst n; simp
    · rw [State.holds, others.heads j n]; rfl
  have offered : ∀ b, u.offered rp b = s.offered rp b := fun b => by
    unfold State.offered State.ownStation
    rw [station, others.mu]
  rw [own] at record ctx hcu ring kept
  refine ⟨?_, ctx, hcu, request, fun g => ?_, ?_, kept⟩
  · rw [record, results, clock]
  · rw [ended g, own, held, others.mu, gens]
  · rw [ring, offered, others.slots]

/-! ### A fault taken whole (R144, R145) -/

/-- `s` with another fault record at head `h` and another Ring Port: what the recording of a fault leaves. -/
def State.noted (s : State) (h : HeadId) (fr : FaultRecord) (rp : RingPort) : State :=
  { s.modHead h (fun x => { x with fr := fr }) with rp := rp }

section
variable (s) (h) (fr : FaultRecord) (rp : RingPort)

@[simp] theorem State.noted_head_same : (s.noted h fr rp).head h = { s.head h with fr := fr } :=
  State.head_modHead_same s h fun x => { x with fr := fr }

@[simp] theorem State.noted_head_other {j : HeadId} (n : j ≠ h) : (s.noted h fr rp).head j = s.head j :=
  State.head_modHead_other s (fun x => { x with fr := fr }) n

@[simp] theorem State.noted_gen (g : GenId) : (s.noted h fr rp).gen g = s.gen g := State.gen_of_gens rfl g

end

/-- The fault record of head `h` after fault `k` with action `act` (R142, R143, R148). -/
def State.recordAfter (s : State) (h : HeadId) (k : FaultKind) (act : FaultAction) : FaultRecord :=
  let f := (s.head h).fr
  { status := addKind k f.status,
    pointer := if s.masked k then f.pointer else some (f.pointer.getD k),
    capture := if s.masked k = true ∨ f.pointer ≠ none then f.capture else some (s.captureOf h k act) }

/-- Recording a kind and, where it is the first and unmasked, capturing it, gives that record. -/
theorem recorded_eq (s : State) (h : HeadId) (k : FaultKind) (act : FaultAction) :
    (if !s.masked k && (s.head h).fr.pointer.isNone then takeCapture h k act (recordKind h k s)
      else recordKind h k s) =
    s.modHead h fun x => { x with fr := s.recordAfter h k act } := by
  have capture : (recordKind h k s).captureOf h k act = s.captureOf h k act := by
    have own : (recordKind h k s).head h =
        { s.head h with fr := { (s.head h).fr with status := addKind k (s.head h).fr.status } } :=
      State.head_modHead_same ..
    have elapsed : (recordKind h k s).elapsed h = s.elapsed h := by
      simp only [State.elapsed, own]; rfl
    simp only [State.captureOf, own, elapsed]; rfl
  split
  · next first =>
    rw [takeCapture, capture, recordKind, State.modHead_modHead]
    refine State.modHead_congr s h ?_
    simp only [Bool.and_eq_true, Bool.not_eq_true', Option.isNone_iff_eq_none] at first
    simp [State.recordAfter, first.1, first.2]
  · next later =>
    refine State.modHead_congr s h ?_
    have kept : s.masked k = true ∨ (s.head h).fr.pointer ≠ none := by
      by_contra n
      rw [not_or, Bool.not_eq_true, not_not] at n
      simp [n.1, n.2] at later
    have pointer : (if s.masked k then (s.head h).fr.pointer else some ((s.head h).fr.pointer.getD k)) =
        (s.head h).fr.pointer := by
      rcases kept with m | n
      · rw [if_pos m]
      · obtain ⟨j, e⟩ := Option.ne_none_iff_exists'.1 n
        simp [e]
    simp only [State.recordAfter, if_pos kept, pointer]

/-- The taking of a fault against a head with a joint: recorded and noticed, then acted on (R144). -/
theorem takeFault_noted (held : s.holds h = true) (k : FaultKind) :
    takeFault h k s = applyAction h k (s.faultAction h k)
      (s.noted h (s.recordAfter h k (s.faultAction h k)) (s.faultNoticed h k (s.faultAction h k))) := by
  rw [takeFault_eq, if_pos held]
  generalize s.faultAction h k = act
  refine congrArg (applyAction h k act) ?_
  rw [recorded_eq]
  cases m : s.masked k
  · have code : (act.after (s.head h).ctx.state).code = (match act with
        | .abort | .escalated => 4
        | .suspend => 3
        | .recorded => (s.head h).ctx.state.code) := by
      cases act <;> rfl
    simp only [State.noticeHeadFault, State.notice_eq, State.head_modHead_same, code, Bool.not_false, Bool.true_and,
      Bool.false_eq_true, if_false]
    simp only [State.noted, State.faultNoticed, m, Bool.false_eq_true, if_false]
    rfl
  · have same : s.faultNoticed h k act = s.rp := if_pos m
    rw [same]
    rfl

/-- The status after a fault holds its kind and those before (R142). -/
theorem mem_addKind (j k : FaultKind) (st : List FaultKind) : j ∈ addKind k st ↔ j = k ∨ j ∈ st := by
  have all : j ∈ FaultKind.all := by cases j <;> decide
  simp [addKind, all]

theorem recordAfter_recorded {k : FaultKind} {act : FaultAction} (e : (t.head h).fr = s.recordAfter h k act) :
    FaultRecorded h k act s t := by
  refine ⟨fun j => ?_, by rw [e]; rfl, by rw [e]; rfl⟩
  rw [e]; exact mem_addKind j k _

/-- A notice leaves the station number. -/
theorem faultNoticed_station (s : State) (h : HeadId) (k : FaultKind) (act : FaultAction) :
    (s.faultNoticed h k act).station = s.rp.station := by
  unfold State.faultNoticed State.offered
  split
  · rfl
  split
  · rfl
  · exact (placeNotice_frame ..).1

/-- A suspension after a fault is noted, as the statements say it (R39, R40, R145). -/
theorem suspend_suspended {k : FaultKind} {fr : FaultRecord} {rp : RingPort}
    (live : (s.head h).ctx.state = .running ∨ (s.head h).ctx.state = .waitGen)
    (e : t = suspend (.fault k) h ((s.noted h fr rp).modCtx h fun c => { c with suspendedOnce := true })) :
    HeadSuspended h (.fault k) s t ∧ (t.head h).ctx.suspendedOnce = true ∧ t.rp = rp
      ∧ (t.head h).fr = fr ∧ OthersKept h s t := by
  let u := (s.noted h fr rp).modCtx h fun c => { c with suspendedOnce := true }
  have own : u.head h = { s.head h with fr := fr, ctx := { (s.head h).ctx with suspendedOnce := true } } := by
    simp [u, State.modCtx]
  have others : ∀ j, j ≠ h → u.head j = s.head j := fun j n => by simp [u, State.modCtx, n]
  have gen : ∀ g, u.gen g = s.gen g := fun g => State.gen_of_gens rfl g
  have same := suspend_head_same u (.fault k) h
  have elapsed : u.elapsed h = if (s.head h).ctx.state = .running then (s.timebase - (s.head h).ctx.segStart).toNat
      else (s.head h).ctx.entryOffset := by
    rcases live with st | st <;> simp only [State.elapsed, own, st] <;> rfl
  obtain ⟨gens, ring, mu, profiles, slots, interlocks, results, timebase, held, eng, pending⟩ :=
    suspend_frame u (.fault k) h
  rw [own] at same
  subst e
  change HeadSuspended h (.fault k) s (suspend (.fault k) h u) ∧ _
  refine ⟨⟨by rw [same], ?_, by rw [same]; exact ⟨rfl, rfl, rfl⟩, by rw [same], ⟨by rw [same], ?_⟩, by rw [same],
    results, fun g => by rw [gens, gen]; rfl, by rw [same]; exact ⟨rfl, rfl, rfl⟩⟩, by rw [same], ring,
    by rw [same],
    fun j n => ?_, profiles, mu, slots, interlocks, timebase, held, eng, pending⟩
  · rw [same]
    simp only [State.suspendRecord, own, elapsed]; rfl
  · exact dropRescue_not_inRescue _ h
  · rw [suspend_head_other u _ n, others j n]

/-- Outside SUSPENDED a fault's action is the one the statements name (R145). -/
theorem faultAction_eq_actionOn (live : (s.head h).ctx.state ≠ .suspended) (k : FaultKind) :
    s.faultAction h k = s.actionOn h k := by
  simp only [State.faultAction, if_neg live, State.actionOn, State.severity]
  by_cases fixed : k.fixedAbort = true <;> simp [fixed]

theorem noted_others (s : State) (h : HeadId) (fr : FaultRecord) (rp : RingPort) :
    OthersKept h s (s.noted h fr rp) :=
  ⟨fun _ n => State.noted_head_other _ _ _ _ n, rfl, rfl, rfl, rfl, rfl, rfl, rfl, rfl⟩

/-- The action of a fault on a head with a joint is to end or to suspend it (R145). -/
theorem actionOn_cases (s : State) (h : HeadId) (k : FaultKind) :
    s.actionOn h k = .suspend ∨ (s.actionOn h k = .abort ∨ s.actionOn h k = .escalated) := by
  unfold State.actionOn
  split
  · exact .inr (.inl rfl)
  split
  · exact .inr (.inr rfl)
  · exact .inl rfl

/-- A fault taken whole, as the statements say it (R144, R145). -/
theorem takeFault_acts (live : (s.head h).ctx.state = .running ∨ (s.head h).ctx.state = .waitGen)
    (k : FaultKind) : FaultActs h k s (takeFault h k s) := by
  have held : s.holds h = true := by rcases live with e | e <;> rw [State.holds, e] <;> rfl
  have action : s.faultAction h k = s.actionOn h k :=
    faultAction_eq_actionOn (by rcases live with e | e <;> rw [e] <;> nofun) k
  have whole := takeFault_noted held k
  rw [action] at whole
  rcases actionOn_cases s h k with act | act
  · obtain ⟨suspended, once, ring, fr, others⟩ :=
      suspend_suspended live (k := k) (t := takeFault h k s) (by rw [whole, act]; rfl)
    exact ⟨recordAfter_recorded (fr.trans (by rw [act])), others, fun _ => ⟨suspended, once, ring⟩,
      fun n => absurd act n⟩
  · have ended : takeFault h k s = finishJoint .fault none (some k) h
        (s.noted h (s.recordAfter h k (s.actionOn h k)) (s.faultNoticed h k (s.actionOn h k))) := by
      rw [whole]; rcases act with e | e <;> rw [e] <;> rfl
    have fr : ((takeFault h k s).head h).fr = s.recordAfter h k (s.actionOn h k) := by
      rw [ended, finishJoint_head_same, State.noted_head_same]; rfl
    refine ⟨recordAfter_recorded fr, ?_, fun e => ?_, fun _ => ?_⟩
    · rw [ended]; exact (noted_others ..).trans (finishJoint_others ..)
    · rcases act with n | n <;> rw [n] at e <;> contradiction
    · rw [ended]
      exact .of_before (noted_others ..) ⟨_, _, State.noted_head_same ..⟩ rfl (faultNoticed_station s h k _)
        (fun g _ _ _ => by rw [State.noted_gen]) (finishJoint_ended (s.noted h _ _) ..)

/-! ### The exit of a segment (R30) -/

/-- A head's leaving of its segment changes neither its inputs' verdict nor its coolant latch (R132, R135). -/
theorem leaving_verdict {x : Head} (inputs : x.inputs = (s.head h).inputs) :
    (s.leaving h x).verdict h = s.verdict h ∧ (s.leaving h x).latched h = s.latched h :=
  ⟨by rw [State.verdict, State.leaving_head_same, inputs]; rfl, rfl⟩

theorem dropRescue_others (s : State) (h : HeadId) : OthersKept h s (dropRescue h s) := by
  obtain ⟨-, mu, profiles, slots, interlocks, -, timebase, held, eng, pending⟩ := dropRescue_frame s h
  exact ⟨fun _ n => dropRescue_head_other s n, profiles, mu, slots, interlocks, timebase, held, eng, pending⟩

/-- Once a head has left a generator's place, its joint's end does there what it would have done before. -/
theorem Generator.afterEnd_of_left (x : Generator) (h : HeadId) (m : RescueMode) (b held : Bool) (d : Nat) :
    (x.afterEnd h m false false 0).afterEnd h m b held d = x.afterEnd h m b held d := by
  by_cases placed : x.inService = some h <;> simp [Generator.afterEnd, placed]

/-- The end of a joint after the head's rescue has ended is the end of the joint (R35 step 4, R105). -/
theorem finishJoint_dropRescue_ended (s : State) (o : JointOutcome) (f : Option (List Criterion))
    (k : Option FaultKind) (h : HeadId) :
    JointEnded h o f k s.rp s (finishJoint o f k h (dropRescue h s)) := by
  obtain ⟨ring, -, -, -, -, results, -⟩ := dropRescue_frame s h
  refine .of_before (dropRescue_others s h) ⟨_, _, dropRescue_head_same s h⟩ results (by rw [ring])
    (fun g b held d => ?_) (ring ▸ finishJoint_ended (dropRescue h s) o f k h)
  rw [(dropRescue_spec s h).1, Generator.afterEnd_of_left]

/-- The segment's count and timer play no part in the criteria (R165). -/
theorem failedBy_leaving (rc : Recipe) (c : HeadContext) (timer : Option Nat) (done : Nat) (k : Criterion) :
    rc.FailedBy { c with segTimer := timer, segsDone := done } k ↔ rc.FailedBy c k := by
  cases k <;> exact Iff.rfl

/-- The exit of a segment that is not the last, as the statements say it (R29, R30, R135). -/
theorem exitSegment_enters {rc : Recipe} {seg : Segment} (recipe : s.recipe h = some rc)
    (next : rc.segments[(s.head h).ctx.segIndex + 1]? = some seg)
    (off : (s.head h).ctx.entryOffset = 0) (cont : (s.head h).ctx.contEntry = false) :
    let v := s.leaving h ((s.head h).inNext seg s.timebase (3 * s.slots.period))
    (seg.heats = false ∨ (s.verdict h = true ∧ s.latched h = false) → exitSegment h s = v)
    ∧ (seg.heats = true → s.latched h = true → FaultActs h .coolantLost v (exitSegment h s))
    ∧ (seg.heats = true → s.latched h = false → s.verdict h = false →
        FaultActs h .interlockLost v (exitSegment h s)) := by
  intro v
  have exits : exitSegment h s = if seg.heats then entryTest h v else v :=
    exitSegment_next s recipe next off cont
  obtain ⟨verdict, latched⟩ : v.verdict h = s.verdict h ∧ v.latched h = s.latched h :=
    leaving_verdict (by cases seg <;> rfl)
  have live : (v.head h).ctx.state = .running ∨ (v.head h).ctx.state = .waitGen := by
    rw [State.leaving_head_same]
    cases seg <;> exact .inl rfl
  rw [exits]
  refine ⟨fun passes => ?_, fun heats latch => ?_, fun heats latch open' => ?_⟩
  · rcases passes with cold | ⟨ok, clear⟩
    · rw [cold]; rfl
    · rw [entryTest_passes v (verdict.trans ok) (latched.trans clear), ite_self]
  · rw [if_pos heats, entryTest, latched, if_pos latch]
    exact takeFault_acts live _
  · rw [if_pos heats, entryTest, latched, verdict, latch, open', if_neg (by decide), if_neg (by decide)]
    exact takeFault_acts live _

/-- The exit of the last segment, as the statements say it (R30, R35, R164, R165). -/
theorem exitSegment_ends {rc : Recipe} (recipe : s.recipe h = some rc)
    (last : (s.head h).ctx.segIndex + 1 = rc.segments.length) :
    ∃ failed : List Criterion,
      JointEnded h (if failed = [] then .accept else .reject) (if failed = [] then none else some failed) none s.rp
        (s.modHead h fun x =>
          { x with ctx := { x.ctx with segTimer := none, segsDone := x.ctx.segsDone + 1 } }) (exitSegment h s)
      ∧ OthersKept h s (exitSegment h s) ∧ ((exitSegment h s).head h).fr = (s.head h).fr
      ∧ failed.Sublist [.minPeak, .maxPeak, .minFlow, .maxFlow, .minEnergy, .maxEnergy, .maxRescues, .fullCool]
      ∧ ∀ k, k ∈ failed ↔ rc.FailedBy (s.head h).ctx k := by
  let u := s.modHead h fun x => { x with ctx := { x.ctx with segTimer := none, segsDone := x.ctx.segsDone + 1 } }
  let failed := failedCriteria rc.criteria ((leaveSegment h s).head h).ctx
  have left : (leaveSegment h s).recipe h = some rc := by
    have profiles : (leaveSegment h s).profiles = s.profiles := (dropRescue_others _ h).profiles
    simpa only [State.recipe, State.profile, leaveSegment_ctx, profiles] using recipe
  have exits : exitSegment h s = finishJoint (if failed = [] then .accept else .reject)
      (if failed = [] then none else some failed) none h (dropRescue h u) := by
    rcases exitSegment_cases h s with ⟨r, q, inside, -⟩ | ⟨-, e⟩
    · obtain rfl := Option.some.inj (recipe.symm.trans q)
      omega
    · rw [e, finishNormally, left]
      by_cases none' : failed = []
      · exact (if_pos none').trans (by rw [if_pos none', if_pos none']; rfl)
      · exact (if_neg none').trans (by rw [if_neg none', if_neg none']; rfl)
  have others : OthersKept h s u :=
    ⟨fun _ n => State.head_modHead_other _ _ n, rfl, rfl, rfl, rfl, rfl, rfl, rfl, rfl⟩
  refine ⟨failed, ?_, ?_, ?_, List.filter_sublist, fun k => ?_⟩
  · rw [exits]; exact finishJoint_dropRescue_ended u ..
  · rw [exits]; exact (others.trans (dropRescue_others u h)).trans (finishJoint_others ..)
  · rw [exits, finishJoint_head_same, dropRescue_head_same, State.head_modHead_same]; rfl
  · rw [failedCriteria_iff, leaveSegment_ctx, failedBy_leaving]

/-- The exit of a segment, as the statements say it (R30). -/
theorem exitSegment_exited {rc : Recipe} (recipe : s.recipe h = some rc)
    (off : (s.head h).ctx.entryOffset = 0) (cont : (s.head h).ctx.contEntry = false) :
    SegmentExited h rc s (exitSegment h s) :=
  ⟨fun _ next => exitSegment_enters recipe next off cont, exitSegment_ends recipe⟩

end Sys2Proof.Machine

namespace Sys2Proof.Proofs

open Sys2Proof.Machine

/-- Settles O40: the expiry of a SOAK or COOL is the exit of its segment, said once for every exit. -/
theorem segmentTimerExitsSegment : Obligations.SegmentTimerExitsSegment := by
  intro s h p rc seg up running timer off cont profile recipe segment notRamp
  let u := s.modHead h fun x =>
    { x with ctx := { x.ctx with coolTimeout := x.ctx.coolTimeout || !seg.heats } }
  have rc_s : s.recipe h = some rc := by rw [State.recipe, profile]; exact recipe
  have seg_s : s.segment h = some seg := by rw [State.segment, rc_s]; exact segment
  have own : (u.head h).ctx = { (s.head h).ctx with
      coolTimeout := (s.head h).ctx.coolTimeout || !seg.heats } := by
    rw [State.head_modHead_same]
  have exits : segmentExpiry h s = exitSegment h u := by
    rw [segmentExpiry, if_pos ⟨running, by rw [timer]; rfl⟩, seg_s]
    cases seg with
    | ramp t a b l c => exact absurd rfl (notRamp t a b l c)
    | soak t l c =>
      have same : u = s := by
        refine Eq.trans (State.modHead_congr s h ?_) (State.modHead_self s h)
        simp [Segment.heats]
      rw [same]
    | cool t l =>
      refine congrArg (exitSegment h) (State.modHead_congr s h ?_)
      simp [Segment.heats]
  have rc_u : u.recipe h = some rc := by rw [← rc_s, State.recipe, own]; rfl
  refine ⟨segmentExpiry h s, live_of_running _ up, ?_⟩
  rw [exits]
  exact exitSegment_exited rc_u (by rw [own]; exact off) (by rw [own]; exact cont)

end Sys2Proof.Proofs
end

section
/-! PROOFS. The moves a piece of work is made of, said once: what may change of one head, of one generator and of the
part in one go. The laws of timers, heat and configuration (O55, O57, O59) are then kept move by move. -/

namespace Sys2Proof.Machine

variable {s t u : State}

/-! ### The part these laws speak of -/

/-- A head context but for its flags and figures, of which these laws do not speak. -/
def HeadContext.bare (c : HeadContext) : HeadContext :=
  { c with timeAboveFlow := 0, energy := 0, rescueCount := 0, segsDone := 0, derated := false,
           earlyRelease := false, coolTimeout := false, suspendedOnce := false, served := false }

/-- What these laws read of a head. -/
def Head.bare (x : Head) : HeadContext × HeadConfig × Hcu := (x.ctx.bare, x.cfg, x.hcu)

/-- What these laws read of the part. -/
def State.lawPart (s : State) : (HeadId → HeadContext × HeadConfig × Hcu) × Generators
    × Vector ProfileRecord 32 × SlotClock × PartConfig × Vector PolicyEntry 9 :=
  (fun h => (s.head h).bare, s.gens, s.profiles, s.slots, s.mu.config, s.mu.policy)

/-- What equal parts agree on. -/
theorem lawPart_eq_iff : t.lawPart = s.lawPart ↔
    (∀ h, (t.head h).bare = (s.head h).bare) ∧ t.gens = s.gens ∧ t.profiles = s.profiles ∧ t.slots = s.slots
      ∧ t.mu.config = s.mu.config ∧ t.mu.policy = s.mu.policy := by
  simp only [State.lawPart, Prod.mk.injEq, funext_iff]

/-- A head's change outside what these laws read of it. -/
theorem lawPart_modHead {f : Head → Head} (h : HeadId) (e : ∀ x, (f x).bare = x.bare) :
    (s.modHead h f).lawPart = s.lawPart := by
  refine lawPart_eq_iff.2 ⟨fun k => ?_, rfl, rfl, rfl, rfl, rfl⟩
  by_cases n : k = h
  · subst n; rw [State.head_modHead_same, e]
  · rw [State.head_modHead_other _ _ n]

theorem lawPart_modAllHeads {f : HeadId → Head → Head} (e : ∀ h x, (f h x).bare = x.bare) :
    (s.modAllHeads f).lawPart = s.lawPart :=
  lawPart_eq_iff.2 ⟨fun k => by rw [State.head_modAllHeads, e], rfl, rfl, rfl, rfl, rfl⟩

section
variable (s)

@[simp] theorem lawPart_countDev (h : HeadId) (d : Deviation) : (s.countDev h d).lawPart = s.lawPart :=
  lawPart_modHead h fun _ => rfl

@[simp] theorem lawPart_modGroup (g : GroupId) (f : Group → Group) : (s.modGroup g f).lawPart = s.lawPart := rfl

@[simp] theorem lawPart_modRp (f : RingPort → RingPort) : (s.modRp f).lawPart = s.lawPart := rfl

@[simp] theorem lawPart_countPort (c : PortCounter) : (s.countPort c).lawPart = s.lawPart := rfl

@[simp] theorem lawPart_notice (b : List Byte) : (s.notice b).lawPart = s.lawPart := by
  unfold State.notice; split <;> rfl

@[simp] theorem lawPart_noticeGenState (g : GenId) (left : GenState) :
    (s.noticeGenState g left).lawPart = s.lawPart := lawPart_notice s _

@[simp] theorem lawPart_noticeHeadFault (h : HeadId) (k : FaultKind) (a : FaultAction) (b : Bool)
    (st : HeadState) : (s.noticeHeadFault h k a b st).lawPart = s.lawPart := lawPart_notice s _

@[simp] theorem lawPart_noticeCoolantLatch (g : GroupId) : (s.noticeCoolantLatch g).lawPart = s.lawPart :=
  lawPart_notice s _

@[simp] theorem lawPart_recordKind (h : HeadId) (k : FaultKind) : (recordKind h k s).lawPart = s.lawPart :=
  lawPart_modHead h fun _ => rfl

@[simp] theorem lawPart_takeCapture (h : HeadId) (k : FaultKind) (a : FaultAction) :
    (takeCapture h k a s).lawPart = s.lawPart := lawPart_modHead h fun _ => rfl

end

/-- The part these laws read lies behind the port. -/
theorem lawPart_of_inner (e : t.inner = s.inner) : t.lawPart = s.lawPart := by
  have part : ∀ v : State, v.lawPart = v.inner.lawPart := fun _ => rfl
  rw [part t, part s, e]

/-! ### Moves -/

/-- A head as its context moves to another segment index with another count of segments completed (R30). -/
def Head.atSegment (x : Head) (i done : Nat) : Head :=
  { x with ctx := { x.ctx with segIndex := i, segsDone := done } }

/-- A head after it has captured its suspend record and entered SUSPENDED (R39, R40). -/
def Head.suspendedWith (x : Head) (q : SuspendRecord) (window : Nat) : Head :=
  { x with
      ctx := { x.ctx with
        suspendRec := some q, state := .suspended, segTimer := none, sampleTimer := none,
        windowTimer := some window },
      hcu := { x.hcu with demand := 0 } }

/-- A head that waits for its generator. -/
def Head.waiting (x : Head) : Head := { x with ctx := { x.ctx with state := .waitGen } }

/-- A generator whose idle timer is stopped (R27, R116). -/
def Generator.unidle (x : Generator) : Generator := { x with idleTimer := none }

/-- What head `h` of `s` may become in one go without a change of who holds a joint, but for its end. -/
inductive HeadMove (s : State) (h : HeadId) : Head → Prop
  /-- A sample is kept (R52). -/
  | keeps (m : TakenSample) (temp : m.temp ≤ 12000) (current : m.current ≤ 4000) :
    HeadMove s h { s.head h with hcu := { (s.head h).hcu with
      seqRef := some m.seq,
      lastSample := some ⟨m.seq, m.temp, m.current, m.quality, m.saturated, s.timebase⟩ } }
  /-- Steps 2 to 5 of R54. -/
  | measures (m : TakenSample) (rc : Recipe) (recipe : s.recipe h = some rc) (temp : m.temp ≤ 12000) (ramp : Bool) :
    HeadMove s h ((s.head h).measured m rc.params ramp s.timebase s.threeSlots)
  /-- Steps 7 and 8 of R54. -/
  | couples (m : TakenSample) : HeadMove s h ((s.head h).coupled m s.threeSlots)
  /-- Step 10 of R54. -/
  | steers (p : Params) (seg : Segment) (elapsed : Nat) (running : (s.head h).ctx.state = .running)
    (segment : s.segment h = some seg) :
    HeadMove s h { s.head h with hcu := (s.head h).hcu.steer p seg (s.head h).ctx.rampOrigin elapsed }
  /-- Into SUSPENDED (R39, R40). -/
  | suspends (cause : SuspendCause) (held : s.holds h = true) :
    HeadMove s h ((s.head h).suspendedWith (s.suspendRecord h cause) s.mu.config.resumeWindow)
  /-- Into a segment of the bound profile, as it stands or after the exit of the one before it (R29, R30). -/
  | enters (rc : Recipe) (i done : Nat) (seg : Segment) (recipe : s.recipe h = some rc)
    (segment : rc.segments[i]? = some seg)
    (live : (s.head h).ctx.state = .running ∨ (s.head h).ctx.state = .waitGen) :
    HeadMove s h (((s.head h).atSegment i done).enter seg s.timebase s.threeSlots)
  /-- Prepared for a joint (R26). -/
  | prepares (p : ProfileId) (serial : Word32) (idle : (s.head h).ctx.state = .idle) :
    HeadMove s h ((s.head h).prepared p (s.profile p).revision serial s.timebase)
  /-- Set up by a resume, to wait for its generator (R43). -/
  | resumes (q : SuspendRecord) (k : Nat) (cont : Bool) (suspended : (s.head h).ctx.state = .suspended)
    (record : (s.head h).ctx.suspendRec = some q) : HeadMove s h ((s.head h).resumedFrom q k cont).waiting
  /-- From one state without a joint to another (R45-R47). -/
  | rests (on : Bool) (st : HeadState) (before : s.holds h = false) (after : st.holdsJoint = false) :
    HeadMove s h ((s.head h).withEnabled on st)
  /-- Configured while it holds no joint (R23). -/
  | configures (w : HeadConfigArg) (b : Option GenId) (free : s.holds h = false) :
    HeadMove s h ((s.head h).configured ((s.head h).cfg.written w b))

/-- What generator `g` of `s` may become in one go, but for its entry into READY and the start of its idle timer. -/
inductive GenMove (s : State) (g : GenId) : Generator → Prop
  /-- Into FAULTED (R122). -/
  | faults (cause : GenCause) (live : (s.gen g).state ≠ .off) (why : cause ≠ .none) :
    GenMove s g { s.gen g with state := .faulted, cause := cause, wakeTimer := none, idleTimer := none,
                               statusTimer := none }
  /-- No head in service any more (R100, R103). -/
  | frees (order : List HeadId) :
    GenMove s g { s.gen g with inService := none, limitTimer := none, rotation := order }
  /-- A head in service (R98). -/
  | grants (h : HeadId) (limit : Nat) :
    GenMove s g { s.gen g with inService := some h, limitTimer := some limit }
  /-- A report recorded (R117). -/
  | reports (r : Reported) (v : Nat) (live : (s.gen g).state ≠ .off) :
    GenMove s g { s.gen g with
      reported := some r, bus := some v, budget := s.mu.config.budgetAt g v,
      statusTimer := if (s.gen g).state = .ready then some s.threeSlots else (s.gen g).statusTimer }
  /-- Woken (R112). -/
  | wakes (timeout : Nat) (standby : (s.gen g).state = .standby) :
    GenMove s g { s.gen g with state := .waking, wakeTimer := some timeout }
  /-- Parked (R116). -/
  | parks (ready : (s.gen g).state = .ready) :
    GenMove s g { s.gen g with state := .standby, idleTimer := none, statusTimer := none }
  /-- Cleared of its fault (R123). -/
  | clears (faulted : (s.gen g).state = .faulted) :
    GenMove s g { s.gen g with state := .standby, bus := none, budget := 0 }
  /-- A DRIVE frame entered in the history (R91). -/
  | drives (history : List DriveEntry) : GenMove s g { s.gen g with history := history }
  /-- The staged table written (R78). -/
  | stages (start len : Nat) (es : List (Option HeadId)) (short : len ≤ 32) :
    GenMove s g { s.gen g with staged := (s.gen g).staged.written start es len, stagedDiffers := true }
  /-- A load asked for (R79). -/
  | loads : GenMove s g { s.gen g with loadPending := true }
  /-- The pointer advanced (R76). -/
  | advances : GenMove s g { s.gen g with
      pointer := advancePointer (s.gen g).active.length (s.gen g).pointer }
  /-- A load completed (R80). -/
  | completes : GenMove s g (s.gen g).completeLoad

/-- `t` is `s` after some moves. -/
inductive Moves : State → State → Prop
  | quiet {s t : State} (e : t.lawPart = s.lawPart) : Moves s t
  | trans {s t u : State} (first : Moves s t) (later : Moves t u) : Moves s u
  | head {s : State} {h : HeadId} {y : Head} (move : HeadMove s h y) : Moves s (s.modHead h fun _ => y)
  | gen {s : State} {g : GenId} {y : Generator} (move : GenMove s g y) : Moves s (s.modGen g fun _ => y)
  /-- A head waits for a generator that is not READY (R27). -/
  | wait {s : State} {h : HeadId} (idle : (s.head h).ctx.state = .idle ∨ (s.head h).ctx.state = .waitGen)
    (away : ∀ g, (s.head h).cfg.binding = some g → (s.gen g).state ≠ .ready) : Moves s (s.modHead h Head.waiting)
  /-- A head takes a READY generator, whose idle timer stops (R27, R116). -/
  | claim {s : State} {h : HeadId} {g : GenId}
    (idle : (s.head h).ctx.state = .idle ∨ (s.head h).ctx.state = .waitGen)
    (bound : (s.head h).cfg.binding = some g) :
    Moves s ((s.modGen g Generator.unidle).modHead h Head.waiting)
  /-- A joint ends (R35). -/
  | finish {s : State} (o : JointOutcome) (f : Option (List Criterion)) (k : Option FaultKind) (h : HeadId) :
    Moves s (finishJoint o f k h s)
  /-- A WAKING generator enters READY, its waiting heads have their turns, and its idle timer starts where no head
  holds it (R113, R116). -/
  | ready {s w : State} {g : GenId} (waking : (s.gen g).state = .waking)
    (turns : Moves (s.modGen g fun x =>
      { x with state := .ready, wakeTimer := none, statusTimer := some s.threeSlots }) w) :
    Moves s (startIdleIfUnheld g w)
  /-- A profile record is written that is not in use, or whose contents stay (R11, R17-R19). -/
  | profile {s : State} {p : ProfileId} {f : ProfileRecord → ProfileRecord}
    (stays : s.inUse p = false ∨ (f (s.profile p)).recipe = (s.profile p).recipe)
    (legal : s.ProfilesLegal → ∀ r, (f (s.profile p)).recipe = some r → r.Legal) : Moves s (s.modProfile p f)
  /-- The part configuration is written (R195, R196). -/
  | config {s : State} (w : PartConfigArg) (modeA modeB : RescueMode)
    (order : (clampConfig w modeA modeB).vt < (clampConfig w modeA modeB).vf) :
    Moves s (writeConfig (clampConfig w modeA modeB) s)
  /-- The fault policy is written (R141). -/
  | policy {s : State} (es : List (Byte × Byte)) (v : Vector PolicyEntry 9) (read : policyOf es = some v) :
    Moves s (s.modMu fun m => { m with policy := v })
  /-- The exclusion list is written (R86). -/
  | exclusions {s : State} (ps : List (Byte × Byte)) (l : List (HeadId × HeadId)) (read : ps.mapM pairOf = some l)
    (few : (distinctPairs l).length ≤ 16) :
    Moves s { s with slots := { s.slots with exclusions := distinctPairs l } }
  | slot (s : State) : Moves s (restartSlot s)
  | tick (s : State) : Moves s (tick s)
  | softReset (s : State) : Moves s (softReset s)
  | powerOn (straps : BitVec 6) (low : Bool) (s : State) : Moves s (powerOn straps low s)

theorem Moves.refl (s : State) : Moves s s := .quiet rfl

/-- What stands before and after the part these laws read plays no part. -/
theorem Moves.then (a : Moves s t) (e : u.lawPart = t.lawPart) : Moves s u := a.trans (.quiet e)

/-- A head's move, as a change by a function. -/
theorem Moves.modHead {h : HeadId} {f : Head → Head} (move : HeadMove s h (f (s.head h))) :
    Moves s (s.modHead h f) := by
  rw [State.modHead_congr s h (f := f) (f' := fun _ => f (s.head h)) rfl]
  exact .head move

/-- A generator's move, as a change by a function. -/
theorem Moves.modGen {g : GenId} {f : Generator → Generator} (move : GenMove s g (f (s.gen g))) :
    Moves s (s.modGen g f) := by
  rw [State.modGen_congr s g (f := f) (f' := fun _ => f (s.gen g)) rfl]
  exact .gen move

/-- Events one after the other. -/
theorem Moves.foldl {α : Type} {f : State → α → State} (each : ∀ s a, Moves s (f s a)) (l : List α) (s : State) :
    Moves s (l.foldl f s) := by
  induction l generalizing s with
  | nil => exact .refl s
  | cons a l ih => exact (each s a).trans (ih _)

/-! ### The resets, head by head and generator by generator (R24, R110, R201) -/

theorem softReset_head (s : State) (h : HeadId) : (softReset s).head h = (s.head h).softReset := by
  simp [softReset, State.head]

theorem softReset_gen (s : State) (g : GenId) :
    (softReset s).gen g = (s.gen g).softReset (s.mu.config.hasGen g) := by cases g <;> rfl

theorem reset_gen (g : GenId) : State.reset.gen g = Generator.powerOn := by cases g <;> rfl

theorem powerOn_head (straps : BitVec 6) (low : Bool) (s : State) (h : HeadId) :
    (powerOn straps low s).head h = Head.powerOn := by simp [powerOn, State.reset, State.head]

theorem powerOn_gen (straps : BitVec 6) (low : Bool) (s : State) (g : GenId) :
    (powerOn straps low s).gen g = Generator.powerOn := by cases g <;> rfl

end Sys2Proof.Machine
end

section
/-! PROOFS. Every piece of work of a step is a run of moves. -/

namespace Sys2Proof.Machine

variable {s t u : State}

/-! ### The end of a rescue -/

theorem endRescue_moves (g : GenId) (s : State) : Moves s (endRescue g s) := by
  unfold endRescue
  split
  · exact .refl s
  · exact .modGen (.frees _)

theorem dropRescue_moves (h : HeadId) (s : State) : Moves s (dropRescue h s) := by
  have ends : ∀ (g : GenId) (t : State) (c : Prop) [Decidable c], Moves t (if c then endRescue g t else t) := by
    intro g t c _
    split
    · exact endRescue_moves g t
    · exact .refl t
  have withdrawn : Moves s (withdraw h s) := .quiet (lawPart_modHead h fun _ => rfl)
  unfold dropRescue endRescueOf
  exact withdrawn.trans ((ends .a ..).trans (ends .b ..))

@[simp] theorem lawPart_noted (h : HeadId) (fr : FaultRecord) (rp : RingPort) :
    (s.noted h fr rp).lawPart = s.lawPart := by
  refine lawPart_eq_iff.2 ⟨fun k => ?_, rfl, rfl, rfl, rfl, rfl⟩
  by_cases n : k = h
  · subst n; rw [State.noted_head_same]; rfl
  · rw [State.noted_head_other _ _ _ _ n]

/-! ### Faults, segments and the entry into a joint -/

theorem suspend_moves {h : HeadId} (held : s.holds h = true) (cause : SuspendCause) : Moves s (suspend cause h s) :=
  (Moves.modHead (.suspends cause held)).trans (dropRescue_moves h _)

/-- A fault ends the joint, suspends it or is recorded (R144, R145). -/
theorem takeFault_moves (h : HeadId) (k : FaultKind) (s : State) : Moves s (takeFault h k s) := by
  by_cases held : s.holds h = true
  · rw [takeFault_noted held]
    generalize s.faultAction h k = act
    have noted : Moves s (s.noted h (s.recordAfter h k act) (s.faultNoticed h k act)) := .quiet (lawPart_noted ..)
    have held' : (s.noted h (s.recordAfter h k act) (s.faultNoticed h k act)).holds h = true := by
      rw [State.holds, State.noted_head_same]; exact held
    refine noted.trans ?_
    generalize s.noted h (s.recordAfter h k act) (s.faultNoticed h k act) = t at held' ⊢
    rcases applyAction_cases t h k act with ⟨-, e⟩ | ⟨-, e⟩ | ⟨-, e⟩ <;> rw [e]
    · exact .finish ..
    · have marked : Moves t (t.modCtx h fun c => { c with suspendedOnce := true }) :=
        .quiet (lawPart_modHead h fun _ => rfl)
      refine marked.trans (suspend_moves ?_ _)
      rw [State.holds, State.modCtx, State.head_modHead_same]; exact held'
    · exact .refl t
  · rw [takeFault_eq, if_neg held]
    exact .quiet (lawPart_recordKind s h k)

theorem entryTest_moves (h : HeadId) (s : State) : Moves s (entryTest h s) := by
  unfold entryTest
  split
  · exact takeFault_moves ..
  split
  · exact .refl s
  · exact takeFault_moves ..

/-- A head's entry into the segment `seg`, with what follows it (R29, R65, R105, R135). -/
theorem entered_moves {h : HeadId} {seg : Segment} {y : Head} (move : HeadMove s h y) :
    Moves s (let s1 := s.modHead h fun _ => y
      let s2 := if seg.isSoak then s1 else dropRescue h s1
      if seg.heats then entryTest h s2 else s2) := by
  dsimp only
  have left : Moves s (if seg.isSoak then s.modHead h fun _ => y else dropRescue h (s.modHead h fun _ => y)) := by
    split
    · exact .head move
    · exact (Moves.head move).trans (dropRescue_moves ..)
  split
  · exact left.trans (entryTest_moves ..)
  · exact left

theorem segment_eq_some_iff {h : HeadId} {seg : Segment} : s.segment h = some seg ↔
    ∃ rc, s.recipe h = some rc ∧ rc.segments[(s.head h).ctx.segIndex]? = some seg := by
  simp only [State.segment, Option.bind_eq_some_iff]

theorem enterSegment_moves {h : HeadId}
    (live : (s.head h).ctx.state = .running ∨ (s.head h).ctx.state = .waitGen) : Moves s (enterSegment h s) := by
  cases e : s.segment h with
  | none => rw [enterSegment, e]; exact .refl s
  | some seg =>
    obtain ⟨rc, recipe, segment⟩ := segment_eq_some_iff.1 e
    rw [enterSegment_eq s e, State.modHead_congr s h (f' := fun _ =>
      ((s.head h).atSegment (s.head h).ctx.segIndex (s.head h).ctx.segsDone).enter seg s.timebase s.threeSlots) rfl]
    exact entered_moves (.enters rc _ _ seg recipe segment live)

theorem endRescueOf_gens (h : HeadId) (s : State) : (endRescueOf h s).gens =
    { a := s.gens.a.afterEnd h s.mu.config.modeA false false 0,
      b := s.gens.b.afterEnd h s.mu.config.modeB false false 0 } :=
  congrArg₂ Generators.mk ((endRescueOf_spec s h).1 .a) ((endRescueOf_spec s h).1 .b)

/-- A joint's end stops the segment timer itself (R35 step 6). -/
theorem finishJoint_segTimer (o : JointOutcome) (f : Option (List Criterion)) (k : Option FaultKind) (h : HeadId)
    (s : State) : finishJoint o f k h (s.modCtx h fun c => { c with segTimer := none }) = finishJoint o f k h s := by
  have record : (s.modCtx h fun c => { c with segTimer := none }).resultRecord h o f k = s.resultRecord h o f k := by
    simp only [State.resultRecord, State.modCtx, State.head_modHead_same]; rfl
  rw [finishJoint_eq, finishJoint_eq, record, endRescueOf_gens, endRescueOf_gens, State.modCtx, State.modHead_modHead]
  rfl

/-- The exit into the next segment is a drop of the rescue and an entry at the next index (R30). -/
theorem exitSegment_moves {h : HeadId} (running : (s.head h).ctx.state = .running) : Moves s (exitSegment h s) := by
  rcases exitSegment_cases h s with ⟨rc, recipe, inside, e⟩ | ⟨-, e⟩ <;> rw [e]
  · let i := (s.head h).ctx.segIndex + 1
    let done := (s.head h).ctx.segsDone + 1
    let x : Head := { (s.head h).atSegment i done with rescueReq := false }
    let v := s.leaving h { x with ctx := { x.ctx with segTimer := none } }
    have left : (leaveSegment h s).modCtx h (fun c => { c with segIndex := c.segIndex + 1 }) = v := by
      simp only [leaveSegment, State.modCtx, dropRescue_eq_leaving, State.modHead_leaving, State.leaving_modHead,
        State.head_modHead_same]
      rfl
    obtain ⟨seg, segment⟩ : ∃ seg, rc.segments[i]? = some seg := ⟨_, List.getElem?_eq_getElem inside⟩
    have recipe_v : v.recipe h = some rc := by
      rw [← recipe, State.recipe, State.leaving_head_same]; rfl
    have segment_v : v.segment h = some seg :=
      segment_eq_some_iff.2 ⟨rc, recipe_v, by rw [State.leaving_head_same]; exact segment⟩
    let d := dropRescue h s
    have own : d.head h = { s.head h with rescueReq := false } := dropRescue_head_same s h
    have recipe_d : d.recipe h = some rc := by
      rw [← recipe, State.recipe, own, State.recipe]
      simp only [State.profile, d, dropRescue_frame]
    have enters := HeadMove.enters rc i done seg recipe_d segment (.inl (by rw [own]; exact running))
    have same : (v.modHead h fun x => x.enter seg v.timebase v.threeSlots) =
        d.modHead h fun _ => ((d.head h).atSegment i done).enter seg d.timebase d.threeSlots := by
      rw [own]
      simp only [v, d, dropRescue_eq_leaving, State.leaving_modHead]
      cases seg <;> rfl
    rw [left, enterSegment_eq v segment_v, same]
    exact (dropRescue_moves h s).trans (entered_moves enters)
  · let d := dropRescue h (s.modCtx h fun c => { c with segsDone := c.segsDone + 1 })
    have left : leaveSegment h s = d.modCtx h fun c => { c with segTimer := none } := by
      simp only [leaveSegment, d, State.modCtx, dropRescue_eq_leaving, State.modHead_leaving, State.leaving_modHead,
        State.head_modHead_same]
    have counted : Moves s (s.modCtx h fun c => { c with segsDone := c.segsDone + 1 }) :=
      .quiet (lawPart_modHead h fun _ => rfl)
    have ends : ∀ l : List Criterion, Moves d (if l = [] then finishJoint .accept none none h (leaveSegment h s)
        else finishJoint .reject (some l) none h (leaveSegment h s)) := fun l => by
      rw [left, finishJoint_segTimer, finishJoint_segTimer]
      split <;> exact .finish ..
    exact (counted.trans (dropRescue_moves ..)).trans (ends _)

/-! ### The entry into a joint (R25-R27, R43) -/

/-- An entry into a joint made of moves: `waits` where the head waits, `claims` where its generator is READY, which
needs a segment (R27). -/
theorem enterJoint_moves {h : HeadId}
    (waits : (∀ g, (u.head h).cfg.binding = some g → (u.gen g).state ≠ .ready) → Moves s (u.modHead h Head.waiting))
    (claims : ∀ g, (u.head h).cfg.binding = some g →
      Moves s ((u.modGen g Generator.unidle).modHead h Head.waiting))
    (segment : ∀ g, (u.head h).cfg.binding = some g → (u.gen g).state = .ready → u.segment h ≠ none) :
    Moves s (enterJoint h u) := by
  have bound : ∀ g, (u.head h).cfg.binding = some g → (u.gen g).state ≠ .ready →
      Moves s (u.modCtx h fun c => { c with state := .waitGen }) := fun g b away => by
    refine waits fun k e => ?_
    obtain rfl := Option.some.inj (b.symm.trans e)
    exact away
  cases b : (u.head h).cfg.binding with
  | none =>
    simp only [enterJoint, b]
    exact waits fun g e => by rw [b] at e; cases e
  | some g =>
    cases st : (u.gen g).state
    case off | waking =>
      simp only [enterJoint, b, st]
      exact bound g b (by rw [st]; nofun)
    case standby =>
      simp only [enterJoint, b, st]
      refine ((bound g b (by rw [st]; nofun)).trans (.modGen (.wakes _ ?_))).then (lawPart_noticeGenState ..)
      rw [State.modCtx, State.gen_modHead, st]
    case faulted =>
      simp only [enterJoint, b, st]
      exact (bound g b (by rw [st]; nofun)).trans (takeFault_moves ..)
    case ready =>
      obtain ⟨seg, e⟩ := Option.ne_none_iff_exists'.1 (segment g b st)
      let v := u.modGen g Generator.unidle
      have e_v : v.segment h = some seg := by
        rw [← e]; simp only [v, State.segment, State.recipe, State.head_modGen, State.profile_modGen]
      have e_w : (v.modHead h Head.waiting).segment h = some seg := by
        rw [← e_v]; simp [State.segment, State.recipe, Head.waiting]
      have enters : enterJoint h u = enterSegment h (v.modHead h Head.waiting) := by
        simp only [enterJoint, b, st]
        change enterSegment h v = _
        rw [enterSegment_eq _ e_v, enterSegment_eq _ e_w, State.modHead_modHead]
        rfl
      rw [enters]
      refine (claims g b).trans (enterSegment_moves (.inr ?_))
      rw [State.head_modHead_same]; rfl

/-- What a START or a RESUME HEAD leaves where the segment it names is missing and its generator READY, in states
that no run reaches (log 24): the head set up, but left as it is. -/
inductive Strays (s : State) : State → Prop
  | starts (h : HeadId) (p : ProfileId) (serial : Word32) (g : GenId) (illegal : ¬ s.ProfilesLegal)
    (idle : (s.head h).ctx.state = .idle) :
    Strays s ((dropRescue h (s.modHead h fun x => x.prepared p (s.profile p).revision serial s.timebase)).modGen g
      Generator.unidle)
  | resumes (h : HeadId) (q : SuspendRecord) (k : Nat) (cont : Bool) (g : GenId) (illegal : ¬ s.JointLegal h)
    (suspended : (s.head h).ctx.state = .suspended) (record : (s.head h).ctx.suspendRec = some q) :
    Strays s ((s.modHead h fun x => x.resumedFrom q k cont).modGen g Generator.unidle)

/-- A joint's begin whose segment is missing, at a READY generator, only stops the idle timer (log 24). -/
theorem enterJoint_of_missing {h : HeadId} {g : GenId} (bound : (u.head h).cfg.binding = some g)
    (ready : (u.gen g).state = .ready) (missing : u.segment h = none) :
    enterJoint h u = u.modGen g Generator.unidle := by
  have missing_v : (u.modGen g Generator.unidle).segment h = none := by
    rw [← missing]; simp only [State.segment, State.recipe, State.head_modGen, State.profile_modGen]
  simp only [enterJoint, bound, ready]
  change enterSegment h (u.modGen g Generator.unidle) = _
  rw [enterSegment, missing_v]

/-- START of an IDLE head with a VALID profile (R26, R27). -/
theorem startJoint_moves {h : HeadId} {p : ProfileId} (idle : (s.head h).ctx.state = .idle)
    (valid : (s.profile p).recipe.isSome) (serial : Word32) :
    Moves s (startJoint h p serial s) ∨ Strays s (startJoint h p serial s) := by
  obtain ⟨rc, recipe⟩ := Option.isSome_iff_exists.1 valid
  let a := s.modHead h fun x => x.prepared p (s.profile p).revision serial s.timebase
  let b := dropRescue h a
  have own : b.head h = { (s.head h).prepared p (s.profile p).revision serial s.timebase with rescueReq := false } := by
    simp [b, a]
  have opened : Moves s b := (Moves.modHead (.prepares p serial idle)).trans (dropRescue_moves ..)
  have idle_b : (b.head h).ctx.state = .idle := by rw [own]; exact idle
  by_cases stray : ∃ g, (b.head h).cfg.binding = some g ∧ (b.gen g).state = .ready ∧ b.segment h = none
  · obtain ⟨g, bound, ready, missing⟩ := stray
    have strays := Strays.starts h p serial g (fun legal => ?_) idle
    · refine .inr ?_
      change Strays s (enterJoint h b)
      rw [enterJoint_of_missing bound ready missing]
      exact strays
    · have some_segment := (legal p rc recipe).1
      have profiles : b.profiles = s.profiles := (dropRescue_others a h).profiles
      have recipe_b : b.recipe h = some rc := by
        rw [State.recipe, own, ← recipe, ← State.profile_of_profiles profiles]; rfl
      rw [State.segment, recipe_b, own] at missing
      exact absurd (List.getElem?_eq_none_iff.1 missing) (Nat.not_le.2 some_segment)
  · exact .inl (enterJoint_moves (fun away => opened.trans (.wait (.inl idle_b) away))
      (fun g bound => opened.trans (.claim (.inl idle_b) bound)) fun g bound ready missing =>
        stray ⟨g, bound, ready, missing⟩)

/-- A resume of a SUSPENDED head (R43, R27). -/
theorem resumeJoint_moves {h : HeadId} {q : SuspendRecord} {k : Nat} {cont : Bool}
    (suspended : (s.head h).ctx.state = .suspended) (record : (s.head h).ctx.suspendRec = some q)
    (ok : resumeSegmentOk q k cont = true) :
    Moves s (resumeJoint h q k cont s) ∨ Strays s (resumeJoint h q k cont s) := by
  let u := s.modHead h fun x => x.resumedFrom q k cont
  have own : u.head h = (s.head h).resumedFrom q k cont := State.head_modHead_same ..
  have opened : Moves s (u.modHead h Head.waiting) := by
    rw [State.modHead_modHead]
    exact .modHead (.resumes q k cont suspended record)
  by_cases stray : ∃ g, (u.head h).cfg.binding = some g ∧ (u.gen g).state = .ready ∧ u.segment h = none
  · obtain ⟨g, bound, ready, missing⟩ := stray
    have strays := Strays.resumes h q k cont g (fun joint => ?_) suspended record
    · refine .inr ?_
      change Strays s (enterJoint h u)
      rw [enterJoint_of_missing bound ready missing]
      exact strays
    · obtain ⟨p, rc, profile, recipe, -, -, inside⟩ := joint.2.1 (by rw [State.holds, suspended]; rfl)
      have le : (if cont then q.segIndex else k) ≤ q.segIndex := by
        simp only [resumeSegmentOk, Bool.and_eq_true, decide_eq_true_eq] at ok
        split
        · exact le_rfl
        · exact ok.1
      have recipe_u : u.recipe h = some rc := by
        rw [State.recipe, own, ← recipe, ← Option.bind_some p fun p => (s.profile p).recipe, ← profile]; rfl
      rw [State.segment, recipe_u, own] at missing
      exact absurd (List.getElem?_eq_none_iff.1 missing) (Nat.not_le.2 (lt_of_le_of_lt le (inside q record)))
  · refine .inl (enterJoint_moves (fun _ => opened) (fun g bound => ?_) fun g bound ready missing =>
      stray ⟨g, bound, ready, missing⟩)
    have again : (u.modGen g Generator.unidle).modHead h Head.waiting =
        ((u.modHead h Head.waiting).modGen g Generator.unidle).modHead h Head.waiting := by
      cases g <;> simp [State.modGen, State.modHead, Head.waiting]
    rw [again]
    refine opened.trans (.claim (.inr ?_) ?_)
    · rw [State.head_modHead_same]; rfl
    · rw [State.head_modHead_same]; exact bound

end Sys2Proof.Machine
end

section
/-! PROOFS. Every event of a generator, a head, a sample, an interlock frame and a slot is a run of moves. -/

namespace Sys2Proof.Machine

variable {s t u : State}

/-! ### Generators (chapter 6) -/

theorem faultGenerator_moves {g : GenId} {cause : GenCause} (live : (s.gen g).state ≠ .off) (why : cause ≠ .none) :
    Moves s (faultGenerator g cause s) := by
  have entered : Moves s (s.modGen g fun x =>
      { x with state := .faulted, cause := cause, wakeTimer := none, idleTimer := none, statusTimer := none }) :=
    .modGen (.faults cause live why)
  unfold faultGenerator
  refine ((entered.trans (endRescue_moves g _)).then (lawPart_noticeGenState ..)).trans (.foldl (fun t h => ?_) _ _)
  unfold faultHeadOf
  dsimp only
  split
  · exact takeFault_moves ..
  · exact .refl t

theorem readyGenerator_moves {g : GenId} (waking : (s.gen g).state = .waking) : Moves s (readyGenerator g s) := by
  unfold readyGenerator
  refine .then (.ready waking (.foldl (fun t h => ?_) _ _)) (lawPart_noticeGenState ..)
  unfold releaseWaiting
  dsimp only
  split
  · next waits => exact enterSegment_moves (.inr waits.2)
  · exact .refl t

theorem applyReport_moves (g : GenId) (r : Reported) (s : State) : Moves s (applyReport g r s) := by
  rcases applyReport_cases s g r with ⟨live, -, -, e⟩ | ⟨waking, -, e⟩ | ⟨ready, -, e⟩ | e <;> rw [e]
  · exact faultGenerator_moves live nofun
  · exact readyGenerator_moves waking
  · exact faultGenerator_moves (by rw [ready]; nofun) nofun
  · exact .refl s

theorem creditEnergy_moves (m : Genstat) (s : State) : Moves s (creditEnergy m s) := by
  rcases creditEnergy_cases s m with e | ⟨h, d, -, -, e⟩ | ⟨h, x, -, -, -, -, e⟩ <;> rw [e]
  · exact .refl s
  · exact .quiet (lawPart_countDev ..)
  · exact .quiet (lawPart_modHead h fun _ => rfl)

theorem takeGenstat_moves (p : List Byte) (s : State) : Moves s (takeGenstat p s) := by
  unfold takeGenstat
  split
  · exact .quiet (lawPart_countPort ..)
  split
  · exact .refl s
  · next m _ live =>
    have recorded : Moves s (recordReport m s) := .modGen (.reports _ _ live)
    exact (recorded.trans (creditEnergy_moves ..)).trans (applyReport_moves ..)

theorem wakeExpiry_moves (g : GenId) (s : State) : Moves s (wakeExpiry g s) := by
  unfold wakeExpiry; split
  · next expires => exact faultGenerator_moves (by rw [expires.1]; nofun) nofun
  · exact .refl s

theorem statusExpiry_moves (g : GenId) (s : State) : Moves s (statusExpiry g s) := by
  unfold statusExpiry; split
  · next expires => exact faultGenerator_moves (by rw [expires.1]; nofun) nofun
  · exact .refl s

theorem idleExpiry_moves (g : GenId) (s : State) : Moves s (idleExpiry g s) := by
  unfold idleExpiry; split
  · next expires => exact (Moves.modGen (.parks expires.1)).then (lawPart_noticeGenState ..)
  · exact .refl s

theorem rescueLimitExpiry_moves (g : GenId) (s : State) : Moves s (rescueLimitExpiry g s) := by
  unfold rescueLimitExpiry
  split
  · split
    · next empty =>
      have freed := GenMove.frees (s := s) (g := g) (s.gen g).rotation
      rw [← empty] at freed
      exact .modGen freed
    · exact (endRescue_moves g s).trans (takeFault_moves ..)
  · exact .refl s

/-! ### The timers of heads (R30, R31, R33, R44) -/

theorem segmentExpiry_moves (h : HeadId) (s : State) : Moves s (segmentExpiry h s) := by
  unfold segmentExpiry
  split
  · next expires =>
    split
    · exact .refl s
    · exact takeFault_moves ..
    · exact exitSegment_moves expires.1
    · have late : Moves s (s.modCtx h fun c => { c with coolTimeout := true }) :=
        .quiet (lawPart_modHead h fun _ => rfl)
      refine late.trans (exitSegment_moves ?_)
      rw [State.modCtx, State.head_modHead_same]; exact expires.1
  · exact .refl s

theorem sampleExpiry_moves (h : HeadId) (s : State) : Moves s (sampleExpiry h s) := by
  unfold sampleExpiry; split
  · exact takeFault_moves ..
  · exact .refl s

theorem windowExpiry_moves (h : HeadId) (s : State) : Moves s (windowExpiry h s) := by
  unfold windowExpiry; split
  · exact takeFault_moves ..
  · exact .refl s

/-! ### Samples (chapter 3) -/

theorem soakTests_moves (p : Params) (target tf : Nat) (h : HeadId) (s : State) :
    Moves s (soakTests p target tf h s) := by
  unfold soakTests raiseRequest
  split
  · split
    · exact .refl s
    · have raised : (s.modHead h fun x => { x with rescueReq := true }).lawPart = s.lawPart :=
        lawPart_modHead h fun _ => rfl
      dsimp only
      split
      · exact .quiet ((lawPart_countDev ..).trans raised)
      · exact .quiet raised
  · split
    · exact dropRescue_moves ..
    · exact .refl s

/-- Steps 10 to 12 of R54 for a RUNNING head. -/
theorem runSample_moves (m : TakenSample) (p : Params) (running : (s.head m.head).ctx.state = .running) :
    Moves s (runSample m p s) := by
  cases e : s.segment m.head with
  | none => rw [runSample, e]; exact .refl s
  | some seg =>
    let steered := s.modHead m.head fun x =>
      { x with hcu := x.hcu.steer p seg x.ctx.rampOrigin (s.since x.ctx.segStart) }
    have steers : Moves s (if m.quality.usable then steered else s) := by
      split
      · exact .modHead (.steers p seg _ running e)
      · exact .refl s
    have state : ((if m.quality.usable then steered else s).head m.head).ctx.state = .running := by
      split
      · rw [State.head_modHead_same]; exact running
      · exact running
    simp only [runSample, e]
    refine steers.trans ?_
    change Moves _ (match ((if m.quality.usable then steered else s).head m.head).hcu.filtered with
      | none => (if m.quality.usable then steered else s)
      | some tf => _)
    generalize (if m.quality.usable then steered else s) = v at state
    split
    · exact .refl v
    split
    · exact soakTests_moves ..
    split
    · exact exitSegment_moves state
    · exact .refl v


theorem processSample_moves {m : TakenSample} {rc : Recipe} (recipe : s.recipe m.head = some rc)
    (temp : m.temp ≤ 12000) : Moves s (processSample m rc.params s) := by
  have measured : Moves s (s.modHead m.head fun x =>
      x.measured m rc.params (s.inRamp m.head) s.timebase s.threeSlots) := .modHead (.measures m rc recipe temp _)
  unfold processSample
  dsimp only
  generalize (s.modHead m.head fun x => x.measured m rc.params (s.inRamp m.head) s.timebase s.threeSlots) = v
    at measured ⊢
  refine measured.trans ?_
  split
  · exact takeFault_moves ..
  have coupled : Moves v (v.modHead m.head fun x => x.coupled m v.threeSlots) := .modHead (.couples m)
  refine coupled.trans ?_
  split
  · next running =>
    split
    · exact takeFault_moves ..
    · exact runSample_moves m _ running
  · exact .refl _

theorem acceptSample_moves {m : TakenSample} (temp : m.temp ≤ 12000) (current : m.current ≤ 4000) (s : State) :
    Moves s (acceptSample m s) := by
  have kept : Moves s (if m.quality = .weak then (keepSample m s).countDev m.head .weak else keepSample m s) := by
    have keeps : Moves s (keepSample m s) :=
      Moves.modHead (h := m.head) (f := fun x => { x with hcu := { x.hcu with
        seqRef := some m.seq,
        lastSample := some ⟨m.seq, m.temp, m.current, m.quality, m.saturated, s.timebase⟩ } }) (.keeps m temp current)
    split
    · exact keeps.then (lawPart_countDev ..)
    · exact keeps
  unfold acceptSample
  dsimp only
  generalize (if m.quality = .weak then (keepSample m s).countDev m.head .weak else keepSample m s) = v at kept ⊢
  refine kept.trans ?_
  split
  · split
    · exact .refl v
    · next recipe => exact processSample_moves recipe temp
  · exact .refl v

/-- A sample is taken with its temperature and current clamped (R50). -/
theorem readSample_clamped {p : List Byte} {m : TakenSample} (e : readSample p = some m) :
    m.temp ≤ 12000 ∧ m.current ≤ 4000 := by
  unfold readSample at e
  split at e
  · split at e
    · split at e
      · obtain rfl := Option.some.inj e
        refine ⟨?_, Nat.min_le_right ..⟩
        dsimp only
        split <;> omega
      · cases e
    · cases e
  · cases e

theorem takeSample_moves (p : List Byte) (s : State) : Moves s (takeSample p s) := by
  unfold takeSample
  split
  · exact .quiet (lawPart_countPort ..)
  next m read =>
  obtain ⟨temp, current⟩ := readSample_clamped read
  unfold sequenceSample
  split
  · exact .quiet (lawPart_countDev ..)
  · exact .quiet (lawPart_countDev ..)
  · exact (Moves.quiet (lawPart_countDev ..)).trans (acceptSample_moves temp current _)
  · exact acceptSample_moves temp current s

/-! ### Interlocks (chapter 7) -/

theorem releaseEarly_moves (h : HeadId) (s : State) : Moves s (releaseEarly h s) := by
  have marked : (s.modCtx h fun c => { c with earlyRelease := true }).lawPart = s.lawPart :=
    lawPart_modHead h fun _ => rfl
  exact .quiet ((lawPart_countDev ..).trans marked)

theorem interlockLoss_moves (released : Bool) (h : HeadId) (s : State) : Moves s (interlockLoss released h s) := by
  unfold interlockLoss
  split
  · split
    · split
      · exact .refl s
      · exact releaseEarly_moves ..
    · exact takeFault_moves ..
  · exact takeFault_moves ..
  · exact takeFault_moves ..
  · exact .refl s
  · exact .refl s
  · exact .refl s

theorem coolantLossHead_moves (s : State) (h : HeadId) : Moves s (coolantLossHead s h) := by
  unfold coolantLossHead
  split
  · split
    · exact releaseEarly_moves ..
    · exact takeFault_moves ..
  · exact takeFault_moves ..
  · exact takeFault_moves ..
  · exact .refl s
  · exact .refl s
  · exact .refl s

theorem coolantLoss_moves (g : GroupId) (s : State) : Moves s (coolantLoss g s) := by
  unfold coolantLoss
  refine .trans (.quiet ?_) (.foldl coolantLossHead_moves _ _)
  split <;> simp

theorem actOnLosses_moves (s0 : State) (lost : GroupId → Bool) (s : State) : Moves s (actOnLosses s0 lost s) := by
  unfold actOnLosses
  refine .trans (.foldl (fun t g => ?_) _ _) (.foldl (fun t h => ?_) _ _)
  · split
    · exact coolantLoss_moves ..
    · exact .refl t
  · split
    · exact interlockLoss_moves ..
    · exact .refl t

theorem lawPart_withInterlocks (i : Interlocks) (s : State) :
    ({ s with interlocks := i } : State).lawPart = s.lawPart := rfl

theorem takeInterlock_moves (p : List Byte) (s : State) : Moves s (takeInterlock p s) := by
  unfold takeInterlock
  split
  · exact .refl s
  · next m _ =>
    unfold takeInterlockFrame
    refine .trans (.quiet ?_) (actOnLosses_moves ..)
    unfold showFrame
    rw [lawPart_withInterlocks, lawPart_modAllHeads, lawPart_withInterlocks]
    exact fun _ _ => rfl

theorem interlockExpiry_moves (s : State) : Moves s (interlockExpiry s) := by
  unfold interlockExpiry
  split
  · refine .trans (.quiet ?_) (actOnLosses_moves ..)
    unfold dropAllInputs
    rw [lawPart_withInterlocks, lawPart_withInterlocks, lawPart_modAllHeads]
    exact fun _ _ => rfl
  · exact .refl s

/-! ### The slot expiry (R74) -/

theorem grantRescue_moves (g : GenId) (h : HeadId) (s : State) : Moves s (grantRescue g h s) := by
  have counted : Moves s (s.modHead h fun x =>
      { x with rescueReq := false, ctx := { x.ctx with rescueCount := count16 x.ctx.rescueCount } }) :=
    .quiet (lawPart_modHead h fun _ => rfl)
  exact (counted.trans (.modGen (.grants h _))).then (lawPart_countDev ..)

theorem resolveRescue_moves (g : GenId) (s : State) : Moves s (resolveRescue g s) := by
  rcases resolveRescue_cases g s with e | ⟨w, -, -, e⟩ | ⟨k, w, -, -, -, e⟩ <;> rw [e]
  · exact .refl s
  · exact grantRescue_moves ..
  · have vacated : Moves s (s.modGen g fun x => { x with inService := none, limitTimer := none }) :=
      .modGen (.frees _)
    refine (vacated.then ?_).trans (grantRescue_moves ..)
    exact lawPart_modHead k fun _ => rfl

theorem serveGenerator_moves (g : GenId) (other : Option HeadId) (s : State) :
    Moves s (serveGenerator g other s).1 := by
  refine (resolveRescue_moves g s).then ?_
  change (countBorrowed _ (resolveRescue g s)).lawPart = _
  unfold countBorrowed
  split <;> simp

theorem powerEffects_moves (g : GenId) (h : HeadId) (s : State) : Moves s (powerEffects g h s) := by
  have served : ∀ t : State, (t.modCtx h fun c => { c with served := true }).lawPart = t.lawPart :=
    fun t => lawPart_modHead h fun _ => rfl
  have derated : (if s.budgetLimits g h then (s.modCtx h fun c => { c with derated := true }).countDev h .derated
      else s).lawPart = s.lawPart := by
    split
    · exact (lawPart_countDev ..).trans (lawPart_modHead h fun _ => rfl)
    · rfl
  unfold powerEffects
  dsimp only
  refine .trans (.quiet ?_) (.modGen (.drives _))
  split
  · exact (served _).trans derated
  · exact derated

theorem buildDrive_moves (g : GenId) (served : Option HeadId) (s : State) : Moves s (buildDrive g served s) := by
  unfold buildDrive
  split
  · exact .refl s
  · dsimp only
    refine .then ?_ (lawPart_modRp ..)
    split
    · exact powerEffects_moves ..
    · exact .refl s

theorem advancePhase_moves (g : GenId) (s : State) : Moves s (advancePhase g s) := by
  unfold advancePhase
  dsimp only
  split
  · exact (Moves.modGen .completes).then (lawPart_notice ..)
  · exact .modGen .advances

theorem slotExpiry_moves (s : State) : Moves s (slotExpiry s) := by
  unfold slotExpiry
  split
  · have advanced : Moves s (advancePhase .b (advancePhase .a (restartSlot s))) :=
      ((Moves.slot s).trans (advancePhase_moves ..)).trans (advancePhase_moves ..)
    exact (((advanced.trans (serveGenerator_moves ..)).trans (serveGenerator_moves ..)).trans
      (buildDrive_moves ..)).trans (buildDrive_moves ..)
  · exact .refl s

end Sys2Proof.Machine
end

section
/-! PROOFS. Every command's body, and so every step, is a run of moves. -/

namespace Sys2Proof.Machine

variable {s t u : State}

/-! ### Commands -/

/-- Carrying out a command is a run of moves. -/
def BodyMoves (body : State → Answer) : Prop := ∀ s, Moves s (body s).after

theorem withHead_moves {f : HeadId → State → Answer} (b : Byte) (each : ∀ h, BodyMoves (f h)) :
    BodyMoves (withHead b f) := by
  intro s
  unfold withHead; split
  · exact each _ s
  · exact .refl s

theorem withGen_moves {f : GenId → State → Answer} (b : Byte) (each : ∀ g, BodyMoves (f g)) :
    BodyMoves (withGen b f) := by
  intro s
  unfold withGen; split
  · exact each _ s
  · exact .refl s

theorem withProfile_moves {f : ProfileId → State → Answer} (b : Byte) (each : ∀ p, BodyMoves (f p)) :
    BodyMoves (withProfile b f) := by
  intro s
  unfold withProfile; split
  · exact each _ s
  · exact .refl s

theorem doStart_moves (hd prof : Byte) (serial : Word32) (s : State) :
    Moves s (doStart hd prof serial s).after ∨ Strays s (doStart hd prof serial s).after := by
  unfold doStart withHead
  split
  · exact .inl (.refl s)
  split
  swap
  · exact .inl (.refl s)
  dsimp only
  split
  · exact .inl (.refl s)
  next idle =>
  split
  · exact .inl (.refl s)
  next p valid =>
  split
  · exact .inl (.refl s)
  split
  · exact .inl (.refl s)
  have isSome : (s.profile p).recipe.isSome := by
    unfold State.startProfile at valid
    split at valid
    · split at valid
      · next ok =>
        obtain rfl := Option.some.inj valid
        exact ok.1
      · cases valid
    · cases valid
  exact startJoint_moves (not_not.1 idle) isSome serial

theorem doAbort_moves (hd : Byte) : BodyMoves (doAbort hd) :=
  withHead_moves hd fun h t => by
    split
    · exact .finish ..
    · exact .refl t

theorem doSuspendHead_moves (hd : Byte) : BodyMoves (doSuspendHead hd) :=
  withHead_moves hd fun h t => by
    split
    · next ok => exact suspend_moves (by rcases ok with e | e <;> rw [State.holds, e] <;> rfl) _
    · exact .refl t

theorem doResumeHead_moves (hd k : Byte) (cont : Bool) (s : State) :
    Moves s (doResumeHead hd k cont s).after ∨ Strays s (doResumeHead hd k cont s).after := by
  unfold doResumeHead withHead
  split
  · dsimp only
    split
    · exact .inl (.refl s)
    next suspended =>
    split
    · exact .inl (.refl s)
    next q record =>
    split
    · exact .inl (.refl s)
    next ok =>
    split
    · exact .inl (.refl s)
    split
    · exact .inl (.refl s)
    · exact resumeJoint_moves (not_not.1 suspended) record (by simpa using ok)
  · exact .inl (.refl s)

theorem doClearHead_moves (hd : Byte) : BodyMoves (doClearHead hd) :=
  withHead_moves hd fun h t => by
    split
    · exact .refl t
    next faulted =>
    split
    · exact .refl t
    · have free : t.holds h = false := by rw [State.holds, not_not.1 faulted]; rfl
      exact Moves.modHead (f := fun x => { x with ctx := { x.ctx with state := .idle } })
        (.rests (t.head h).cfg.enabled .idle free rfl)

theorem doDisableHead_moves (hd : Byte) : BodyMoves (doDisableHead hd) :=
  withHead_moves hd fun h t => by
    split
    · exact .refl t
    next idle =>
    have free : t.holds h = false := by rw [State.holds, not_not.1 idle]; rfl
    exact Moves.modHead (f := fun x => x.withEnabled false .disabled) (.rests false .disabled free rfl)

theorem doEnableHead_moves (hd : Byte) : BodyMoves (doEnableHead hd) :=
  withHead_moves hd fun h t => by
    split
    · exact .refl t
    next disabled =>
    have free : t.holds h = false := by rw [State.holds, not_not.1 disabled]; rfl
    exact Moves.modHead (f := fun x => x.withEnabled true .idle) (.rests true .idle free rfl)

theorem doClearFaults_moves (hd : Byte) (kinds : List Byte) : BodyMoves (doClearFaults hd kinds) :=
  withHead_moves hd fun h t => by
    split
    · exact .refl t
    · exact .quiet (lawPart_modHead h fun _ => rfl)

theorem doWriteHeadConfig_moves (w : HeadConfigArg) : BodyMoves (doWriteHeadConfig w) :=
  withHead_moves w.head fun h t => by
    split
    · exact .refl t
    next b _ =>
    split
    · exact .refl t
    next free =>
    exact Moves.modHead (f := fun x => x.configured ((t.head h).cfg.written w b))
      (.configures w b (by simpa using free))

theorem doClearCoolantLatch_moves (g : Byte) : BodyMoves (doClearCoolantLatch g) := by
  intro s
  unfold doClearCoolantLatch
  split
  · exact .refl s
  split
  · exact .refl s
  · exact .quiet rfl

theorem doClearGenerator_moves (g : Byte) : BodyMoves (doClearGenerator g) :=
  withGen_moves g fun g t => by
    split
    · exact .refl t
    next faulted =>
    split
    · exact .refl t
    · exact (Moves.modGen (.clears (not_not.1 faulted))).then (lawPart_noticeGenState ..)

theorem doClearCounters_moves : BodyMoves doClearCounters := by
  intro s
  let u := s.modAllHeads fun _ x => { x with deviations := Vector.replicate 11 0 }
  have zeroed : u.lawPart = s.lawPart := lawPart_modAllHeads fun _ _ => rfl
  have rest : (zeroCounters s).lawPart = u.lawPart := by
    simp only [zeroCounters, lawPart_withInterlocks, lawPart_modRp, u]
  exact .quiet (rest.trans zeroed)

theorem doReadResults_moves (n : Byte) : BodyMoves (doReadResults n) := by
  intro s
  unfold doReadResults
  split
  · exact .refl s
  · exact .quiet rfl

theorem doWritePhases_moves (g i : Byte) (es : List Byte) (n : Byte) : BodyMoves (doWritePhases g i es n) :=
  withGen_moves g fun g t => by
    split
    · exact .refl t
    next fits =>
    split
    · exact .refl t
    next es _ =>
    split
    · exact .refl t
    · exact Moves.modGen (f := fun x =>
        { x with staged := x.staged.written i.toNat es n.toNat, stagedDiffers := true })
        (.stages _ _ _ (Nat.not_lt.1 fun long => fits (.inl long)))

theorem doLoadPhases_moves (g : Byte) : BodyMoves (doLoadPhases g) :=
  withGen_moves g fun g t => by
    split
    · exact .refl t
    split
    · exact .refl t
    · exact Moves.modGen (f := fun x => { x with loadPending := true }) .loads

theorem doWriteExclusions_moves (ps : List (Byte × Byte)) : BodyMoves (doWriteExclusions ps) := by
  intro s
  unfold doWriteExclusions
  split
  · exact .refl s
  next l read =>
  dsimp only
  split
  · exact .refl s
  next few => exact .exclusions ps l read (Nat.not_lt.1 few)

theorem doWritePartConfig_moves (w : PartConfigArg) : BodyMoves (doWritePartConfig w) := by
  intro s
  unfold doWritePartConfig
  split
  · dsimp only
    split
    · exact .refl s
    next order =>
    split
    · exact .refl s
    · exact .config w _ _ (Nat.not_le.1 order)
  · exact .refl s

theorem doWriteFaultPolicy_moves (ps : List (Byte × Byte)) : BodyMoves (doWriteFaultPolicy ps) := by
  intro s
  unfold doWriteFaultPolicy
  split
  · exact .refl s
  next v read => exact .policy ps v read

theorem doWriteProfile_moves (w : ProfileArg) : BodyMoves (doWriteProfile w) :=
  withProfile_moves w.profile fun p t => by
    split
    · exact .refl t
    next passes =>
    split
    · exact .refl t
    split
    · exact .refl t
    next unused =>
    split
    · exact .refl t
    refine Moves.profile (f := fun x => x.written w.clampedRecipe) (.inl (by simpa using unused)) fun _ r e => ?_
    obtain rfl := Option.some.inj e
    exact ((passes_iff w).1 (by simpa using passes)).2.2.1

theorem doEraseProfile_moves (p : Byte) (e : Option Word16) : BodyMoves (doEraseProfile p e) :=
  withProfile_moves p fun p t => by
    split
    · exact .refl t
    split
    · exact .refl t
    next unused =>
    split
    · exact .refl t
    · exact Moves.profile (f := fun x => { x with recipe := none, revision := x.revision + 1 })
        (.inl (by simpa using unused)) fun _ => nofun

theorem doLockProfile_moves (p : Byte) : BodyMoves (doLockProfile p) :=
  withProfile_moves p fun p _ =>
    Moves.profile (f := fun x => { x with locked := true }) (.inr rfl) fun legal r e => legal p r e

theorem doUnlockProfile_moves (p : Byte) : BodyMoves (doUnlockProfile p) :=
  withProfile_moves p fun p t => by
    split
    · exact .refl t
    · exact Moves.profile (f := fun x => { x with locked := false }) (.inr rfl) fun legal r e => legal p r e

/-- Every command's body is a run of moves, but for a START or a RESUME HEAD that strays. -/
theorem CommandBody.moves {body : State → Answer} (b : CommandBody body) :
    Moves s (body s).after ∨ Strays s (body s).after := by
  cases b with
  | resumeHead h k cont => exact doResumeHead_moves h k cont s
  | readStatus page => rw [doReadStatus_after]; exact .inl (.refl s)
  | readConfig => exact .inl (.refl s)
  | readCounters page => rw [doReadCounters_after]; exact .inl (.refl s)
  | readProfile p => rw [doReadProfile_after]; exact .inl (.refl s)
  | readPhases g table => rw [doReadPhases_after]; exact .inl (.refl s)
  | readHead h => rw [doReadHead_after]; exact .inl (.refl s)
  | readFaults h => rw [doReadFaults_after]; exact .inl (.refl s)
  | readResults n => exact .inl (doReadResults_moves n s)
  | peekResults n => rw [doPeekResults_after]; exact .inl (.refl s)
  | start h p serial => exact doStart_moves h p serial s
  | abort h => exact .inl (doAbort_moves h s)
  | suspendHead h => exact .inl (doSuspendHead_moves h s)
  | clearHead h => exact .inl (doClearHead_moves h s)
  | clearFaults h kinds => exact .inl (doClearFaults_moves h kinds s)
  | clearCoolantLatch g => exact .inl (doClearCoolantLatch_moves g s)
  | clearGenerator g => exact .inl (doClearGenerator_moves g s)
  | ackColdStart => exact .inl (.quiet rfl)
  | clearCounters => exact .inl (doClearCounters_moves s)
  | writeProfile w => exact .inl (doWriteProfile_moves w s)
  | eraseProfile p e => exact .inl (doEraseProfile_moves p e s)
  | lockProfile p => exact .inl (doLockProfile_moves p s)
  | unlockProfile p => exact .inl (doUnlockProfile_moves p s)
  | writePhases g i es n => exact .inl (doWritePhases_moves g i es n s)
  | loadPhases g => exact .inl (doLoadPhases_moves g s)
  | writeHeadConfig w => exact .inl (doWriteHeadConfig_moves w s)
  | writeExclusions ps => exact .inl (doWriteExclusions_moves ps s)
  | writePartConfig w => exact .inl (doWritePartConfig_moves w s)
  | writeFaultPolicy ps => exact .inl (doWriteFaultPolicy_moves ps s)
  | disableHead h => exact .inl (doDisableHead_moves h s)
  | enableHead h => exact .inl (doEnableHead_moves h s)
  | resetPart => exact .inl (.quiet rfl)

/-! ### Every step -/

theorem releaseRst_moves (underWay : Bool) (s : State) : Moves s (releaseRst underWay s) := by
  unfold releaseRst
  split
  · exact .quiet rfl
  · exact .refl s

/-- Every piece of work is a run of moves, but for a START or a RESUME HEAD that strays. -/
theorem Work.moves {w : State → State} (h : Work w) :
    Moves s (w s) ∨ Strays s (w s) := by
  cases h with
  | idle => exact .inl (.refl s)
  | powerOn straps low => exact .inl (.powerOn straps low s)
  | release underWay => exact .inl (releaseRst_moves underWay s)
  | softReset => exact .inl (.softReset s)
  | tick => exact .inl (.tick s)
  | slot => exact .inl (slotExpiry_moves s)
  | segmentTimer h => exact .inl (segmentExpiry_moves h s)
  | sampleTimer h => exact .inl (sampleExpiry_moves h s)
  | windowTimer h => exact .inl (windowExpiry_moves h s)
  | rescueLimit g => exact .inl (rescueLimitExpiry_moves g s)
  | wakeTimer g => exact .inl (wakeExpiry_moves g s)
  | statusTimer g => exact .inl (statusExpiry_moves g s)
  | idleTimer g => exact .inl (idleExpiry_moves g s)
  | frameTimer => exact .inl (interlockExpiry_moves s)
  | sample payload => exact .inl (takeSample_moves payload s)
  | genstat payload => exact .inl (takeGenstat_moves payload s)
  | interlock payload => exact .inl (takeInterlock_moves payload s)
  | command b => exact b.moves

/-- A step is a run of moves, but for a START or a RESUME HEAD that strays; behind the port the part before it is `s`. -/
theorem step_moves (e : step s = .next t) :
    Moves s t ∨ ∃ u v, u.inner = s.inner ∧ Strays u v ∧ t.inner = v.inner := by
  obtain ⟨w, u, hw, before, after⟩ := step_worksTo e
  rcases hw.moves with moves | strays
  · exact .inl ((Moves.quiet (lawPart_of_inner before)).trans (moves.then (lawPart_of_inner after)))
  · exact .inr ⟨u, _, before, strays, after⟩

/-- Where every joint is legal, a step is a run of moves. -/
theorem step_moves_of_joints (legal : s.JointsLegal) (e : step s = .next t) : Moves s t := by
  rcases step_moves e with moves | ⟨u, v, before, strays, -⟩
  · exact moves
  · have kept := (JointsContinue.of_part (jointPart_of_inner before)).keepsLegal legal
    cases strays with
    | starts h p serial g illegal => exact absurd kept.1 illegal
    | resumes h q k cont g illegal => exact absurd (kept.2.1 h) illegal

end Sys2Proof.Machine
end

section
/-! PROOFS. Every move keeps the timers running exactly where their rules let them (R29, R33, R40, R107,
R112-R116). -/

namespace Sys2Proof.Machine

variable {s t u : State}

/-! ### Who holds a generator -/

/-- Who holds a generator is read from the heads' states and bindings. -/
theorem genHeld_congr {g : GenId}
    (e : ∀ h, (t.holds h && ((t.head h).cfg.binding == some g)) = (s.holds h && ((s.head h).cfg.binding == some g))) :
    t.genHeld g = s.genHeld g := congrArg allHeads.any (funext e)

theorem genHeld_iff (g : GenId) :
    s.genHeld g = true ↔ ∃ h, s.holds h = true ∧ (s.head h).cfg.binding = some g := by
  simp [State.genHeld, mem_allHeads]

/-- Another head's hold is a hold; and the only one where the head itself is bound elsewhere. -/
theorem genHeld_of_other {g : GenId} {h : HeadId} (e : s.heldByOther g h = true) : s.genHeld g = true := by
  simp only [State.heldByOther, List.any_eq_true, Bool.and_eq_true, beq_iff_eq] at e
  obtain ⟨k, -, ⟨-, held⟩, bound⟩ := e
  exact (genHeld_iff g).2 ⟨k, held, bound⟩

theorem other_of_genHeld {g : GenId} {h : HeadId} (away : (s.head h).cfg.binding ≠ some g)
    (e : s.genHeld g = true) : s.heldByOther g h = true := by
  obtain ⟨k, held, bound⟩ := (genHeld_iff g).1 e
  have n : k ≠ h := by rintro rfl; exact away bound
  simp only [State.heldByOther, List.any_eq_true, Bool.and_eq_true, beq_iff_eq, bne_iff_ne]
  exact ⟨k, mem_allHeads k, ⟨n, held⟩, bound⟩

/-! ### The law on one generator -/

/-- The law of a generator's timers, where `held` says that a head holds it: `State.GenTimersLegal`, but that a
`loose` generator's idle timer may stand still. Its entry into READY leaves it loose until its heads have had their
turns (R113). -/
structure Generator.TimersSafe (x : Generator) (held : Bool) (loose : Prop) : Prop where
  wake : x.wakeTimer.isSome = (x.state == .waking)
  status : x.statusTimer.isSome = (x.state == .ready)
  limit : x.limitTimer.isSome = x.inService.isSome
  idle : x.idleTimer.isSome = true → x.state = .ready ∧ held = false
  runs : ¬ loose → x.state = .ready → held = false → x.idleTimer.isSome = true

/-- The law of the timers, with some generators loose. -/
def State.TimersSafe (s : State) (loose : GenId → Prop) : Prop :=
  (∀ h, (s.head h).ctx.TimersLegal) ∧ ∀ g, (s.gen g).TimersSafe (s.genHeld g) (loose g)

/-- With no generator loose it is the law of the timers. -/
theorem timersSafe_iff : s.TimersSafe (fun _ => False) ↔ s.TimersLegal := by
  refine and_congr_right fun _ => forall_congr' fun g => ⟨fun l => ⟨l.wake, l.status, ?_, l.limit⟩, ?_⟩
  · rw [Bool.eq_iff_iff, Bool.and_eq_true, beq_iff_eq, Bool.not_eq_true']
    exact ⟨l.idle, fun e => l.runs id e.1 e.2⟩
  · rintro ⟨wake, status, idle, limit⟩
    rw [Bool.eq_iff_iff, Bool.and_eq_true, beq_iff_eq, Bool.not_eq_true'] at idle
    exact ⟨wake, status, limit, idle.1, fun _ ready free => idle.2 ⟨ready, free⟩⟩

/-- Every move of a generator keeps its timers safe. -/
theorem GenMove.timersSafe {g : GenId} {y : Generator} (move : GenMove s g y) {held : Bool} {loose : Prop}
    (l : (s.gen g).TimersSafe held loose) : y.TimersSafe held loose := by
  obtain ⟨wake, status, limit, idle, runs⟩ := l
  cases move with
  | faults cause live why => exact ⟨rfl, rfl, limit, nofun, nofun⟩
  | frees order => exact ⟨wake, status, rfl, idle, runs⟩
  | grants h lim => exact ⟨wake, status, rfl, idle, runs⟩
  | reports r v live =>
    refine ⟨wake, ?_, limit, idle, runs⟩
    dsimp only
    split
    · next ready => rw [ready]; rfl
    · exact status
  | wakes timeout standby =>
    rw [standby] at status idle
    exact ⟨rfl, status, limit, (fun e => nomatch (idle e).1), nofun⟩
  | parks ready =>
    rw [ready] at wake
    exact ⟨wake, rfl, limit, nofun, nofun⟩
  | clears faulted =>
    rw [faulted] at wake status idle
    exact ⟨wake, status, limit, (fun e => nomatch (idle e).1), nofun⟩
  | drives | stages | loads | advances | completes => exact ⟨wake, status, limit, idle, runs⟩

/-- A configuration write keeps a generator's timers safe (R111). -/
theorem Generator.reconfigured_timersSafe {x : Generator} {held : Bool} {loose : Prop}
    (l : x.TimersSafe held loose) (old new : PartConfig) (g : GenId) :
    (x.reconfigured old new g).TimersSafe held loose := by
  have cleared : ∀ st c, (st = .standby ∨ st = .off) → (x.cleared st c).TimersSafe held loose := by
    rintro st c (rfl | rfl) <;> exact ⟨rfl, rfl, l.limit, nofun, nofun⟩
  unfold Generator.reconfigured
  split
  · split
    · exact cleared _ _ (.inl rfl)
    · exact l
  split
  · exact cleared _ _ (.inr rfl)
  split
  · exact cleared _ _ (.inl rfl)
  · exact ⟨l.wake, l.status, l.limit, l.idle, l.runs⟩

/-! ### The law on one head -/

/-- A head without a joint is neither RUNNING nor SUSPENDED. -/
theorem state_ne_of_free {st : HeadState} (e : st.holdsJoint = false) :
    (st == .running) = false ∧ (st == .suspended) = false :=
  ⟨beq_eq_false_iff_ne.2 (by rintro rfl; cases e), beq_eq_false_iff_ne.2 (by rintro rfl; cases e)⟩

/-- Every move of a head keeps its timers legal, and whether it holds a joint, and of which generator. -/
theorem HeadMove.timers {h : HeadId} {y : Head} (move : HeadMove s h y) :
    ((s.head h).ctx.TimersLegal → y.ctx.TimersLegal)
      ∧ ∀ g, (y.ctx.state.holdsJoint && (y.cfg.binding == some g)) =
        (s.holds h && ((s.head h).cfg.binding == some g)) := by
  cases move with
  | keeps | measures | steers | prepares => exact ⟨id, fun _ => rfl⟩
  | couples m =>
    refine ⟨fun ⟨seg, sample, window⟩ => ⟨seg, ?_, window⟩, fun _ => rfl⟩
    unfold Head.coupled
    dsimp only
    split
    · next usable =>
      rw [Bool.and_eq_true] at usable
      exact usable.1.symm
    · exact sample
  | suspends cause held =>
    exact ⟨fun _ => ⟨rfl, rfl, rfl⟩, fun _ => by rw [held]; rfl⟩
  | enters rc i done seg recipe segment live =>
    have held : s.holds h = true := by rcases live with e | e <;> rw [State.holds, e] <;> rfl
    refine ⟨fun ⟨_, _, window⟩ => ⟨rfl, rfl, ?_⟩, fun _ => by rw [held]; rfl⟩
    have stopped : (s.head h).ctx.windowTimer.isSome = false := by
      rcases live with e | e <;> rw [window, e] <;> rfl
    exact stopped
  | resumes q k cont suspended record =>
    refine ⟨fun ⟨seg, sample, _⟩ => ?_, fun _ => by rw [State.holds, suspended]; rfl⟩
    rw [suspended] at seg sample
    exact ⟨seg, sample, rfl⟩
  | rests on st before after =>
    refine ⟨fun ⟨seg, sample, window⟩ => ?_, fun _ => ?_⟩
    · have old := state_ne_of_free before
      have new := state_ne_of_free after
      rw [old.1] at seg sample
      rw [old.2] at window
      exact ⟨seg.trans new.1.symm, sample.trans new.1.symm, window.trans new.2.symm⟩
    · change (st.holdsJoint && _) = _
      rw [after, before]; rfl
  | configures w b free =>
    refine ⟨id, fun _ => ?_⟩
    change (s.holds h && _) = _
    rw [free]; rfl

/-! ### The law on the part -/

/-- A change of one head that keeps its timers legal and its hold of each generator. -/
theorem State.TimersSafe.modHead {loose : GenId → Prop} (l : s.TimersSafe loose) {h : HeadId} {f : Head → Head}
    (ctx : (s.head h).ctx.TimersLegal → (f (s.head h)).ctx.TimersLegal)
    (hold : ∀ g, ((f (s.head h)).ctx.state.holdsJoint && ((f (s.head h)).cfg.binding == some g)) =
      (s.holds h && ((s.head h).cfg.binding == some g))) : (s.modHead h f).TimersSafe loose := by
  refine ⟨fun k => ?_, fun g => ?_⟩
  · by_cases n : k = h
    · subst n; rw [State.head_modHead_same]; exact ctx (l.1 k)
    · rw [State.head_modHead_other _ _ n]; exact l.1 k
  · have held : (s.modHead h f).genHeld g = s.genHeld g := genHeld_congr fun k => by
      by_cases n : k = h
      · subst n; rw [State.holds, State.head_modHead_same]; exact hold g
      · rw [State.holds, State.head_modHead_other _ _ n]; rfl
    rw [State.gen_modHead, held]; exact l.2 g

/-- Safe timers are read from the heads and the generators. -/
theorem State.TimersSafe.congr {loose : GenId → Prop} (l : s.TimersSafe loose)
    (heads : ∀ h, (t.head h).bare = (s.head h).bare) (gens : ∀ g, t.gen g = s.gen g) : t.TimersSafe loose := by
  have ctx : ∀ h, (t.head h).ctx.bare = (s.head h).ctx.bare := fun h => congrArg Prod.fst (heads h)
  have cfg : ∀ h, (t.head h).cfg = (s.head h).cfg := fun h => congrArg (fun x => x.2.1) (heads h)
  have state : ∀ h, (t.head h).ctx.state = (s.head h).ctx.state := fun h => congrArg (fun c => c.state) (ctx h)
  refine ⟨fun h => ?_, fun g => ?_⟩
  · change (t.head h).ctx.bare.TimersLegal
    rw [ctx]; exact l.1 h
  · rw [gens, genHeld_congr (s := s) fun h => by rw [State.holds, state, cfg]; rfl]
    exact l.2 g

/-- A change of one generator that keeps its timers safe. -/
theorem State.TimersSafe.modGen {loose loose' : GenId → Prop} (l : s.TimersSafe loose) {g : GenId}
    {f : Generator → Generator}
    (gen : (s.gen g).TimersSafe (s.genHeld g) (loose g) → (f (s.gen g)).TimersSafe (s.genHeld g) (loose' g))
    (other : ∀ k, k ≠ g → (loose k → loose' k)) : (s.modGen g f).TimersSafe loose' := by
  refine ⟨fun h => by rw [State.head_modGen]; exact l.1 h, fun k => ?_⟩
  have held : (s.modGen g f).genHeld k = s.genHeld k := genHeld_congr fun h => by
    rw [State.holds, State.head_modGen]; rfl
  rw [held]
  by_cases n : k = g
  · subst n; rw [State.gen_modGen_same]; exact gen (l.2 k)
  · rw [State.gen_modGen_other _ _ n]
    obtain ⟨wake, status, limit, idle, runs⟩ := l.2 k
    exact ⟨wake, status, limit, idle, fun tight => runs fun e => tight (other k n e)⟩

end Sys2Proof.Machine
end

section
/-! PROOFS. Every run of moves keeps the law of the timers, and a step is such a run (R29, R33, R40, R107,
R112-R116). -/

namespace Sys2Proof.Machine

variable {s t u : State}

/-- A head without a joint, or waiting for its generator, waits: the idle timer of its generator stands still. -/
theorem State.TimersSafe.waiting {loose : GenId → Prop} (l : s.TimersSafe loose) {h : HeadId}
    (idle : (s.head h).ctx.state = .idle ∨ (s.head h).ctx.state = .waitGen)
    (still : ∀ g, (s.head h).cfg.binding = some g → (s.gen g).idleTimer = none) :
    (s.modHead h Head.waiting).TimersSafe loose := by
  have own : (s.modHead h Head.waiting).head h = (s.head h).waiting := State.head_modHead_same ..
  refine ⟨fun k => ?_, fun g => ?_⟩
  · by_cases n : k = h
    · subst n
      obtain ⟨seg, sample, window⟩ := l.1 k
      rw [own]
      rcases idle with e | e <;> rw [e] at seg sample window <;> exact ⟨seg, sample, window⟩
    · rw [State.head_modHead_other _ _ n]; exact l.1 k
  · obtain ⟨wake, status, limit, idleOf, runs⟩ := l.2 g
    rw [State.gen_modHead]
    by_cases bound : (s.head h).cfg.binding = some g
    · have held : (s.modHead h Head.waiting).genHeld g = true :=
        (genHeld_iff g).2 ⟨h, by rw [State.holds, own]; rfl, by rw [own]; exact bound⟩
      refine ⟨wake, status, limit, fun e => ?_, fun _ _ e => ?_⟩
      · rw [still g bound] at e; cases e
      · rw [held] at e; cases e
    · have held : (s.modHead h Head.waiting).genHeld g = s.genHeld g := genHeld_congr fun k => by
        by_cases n : k = h
        · subst n
          have off : ((s.head k).cfg.binding == some g) = false := beq_eq_false_iff_ne.2 bound
          rw [own, show (s.head k).waiting.cfg = (s.head k).cfg from rfl, off, Bool.and_false, Bool.and_false]
        · rw [State.holds, State.head_modHead_other _ _ n]; rfl
      rw [held]
      exact ⟨wake, status, limit, idleOf, runs⟩

/-- The idle timer's start where no head holds the generator leaves it loose no more (R116). -/
theorem Generator.TimersSafe.start {x : Generator} {held : Bool} {loose : Prop} (l : x.TimersSafe held True)
    (delay : Nat) : (if x.state == .ready && !held then { x with idleTimer := some delay } else x).TimersSafe held
      loose := by
  obtain ⟨wake, status, limit, idle, -⟩ := l
  split
  · next starts =>
    simp only [Bool.and_eq_true, beq_iff_eq, Bool.not_eq_true'] at starts
    exact ⟨wake, status, limit, fun _ => starts, fun _ _ _ => rfl⟩
  · next stays =>
    refine ⟨wake, status, limit, idle, fun _ ready free => absurd ?_ stays⟩
    simp [ready, free]

/-- A generator after a joint's end: the head's service is over, and the idle timer starts where the head was the
last that held it (R103, R116). -/
theorem Generator.TimersSafe.afterEnd {x : Generator} {before after bound : Bool} {loose : Prop}
    (l : x.TimersSafe before loose) (h : HeadId) (m : RescueMode) (delay : Nat)
    (other : after = true → before = true) (same : bound = false → before = after) :
    (x.afterEnd h m bound after delay).TimersSafe after loose := by
  let y := x.afterEnd h m false false 0
  have freed : y.TimersSafe before loose := by
    obtain ⟨wake, status, limit, idle, runs⟩ := l
    by_cases placed : x.inService = some h
    · have ended : y = { x with inService := none, limitTimer := none, rotation := y.rotation } := by
        simp [y, Generator.afterEnd, placed]
      rw [ended]; exact ⟨wake, status, rfl, idle, runs⟩
    · have stays : y = x := by simp [y, Generator.afterEnd, placed]
      rw [stays]; exact ⟨wake, status, limit, idle, runs⟩
  cases bound with
  | false =>
    rw [same rfl] at freed
    exact freed
  | true =>
    have state : y.state = x.state := by simp [y, Generator.afterEnd, apply_ite Generator.state]
    have shape : x.afterEnd h m true after delay =
        if y.state == .ready && !after then { y with idleTimer := some delay } else y := by
      rw [state]
      by_cases placed : x.inService = some h <;> simp [y, Generator.afterEnd, placed]
    rw [shape]
    obtain ⟨wake, status, limit, idle, -⟩ := freed
    refine Generator.TimersSafe.start ⟨wake, status, limit, fun e => ?_, fun n => absurd trivial n⟩ delay
    obtain ⟨ready, free⟩ := idle e
    exact ⟨ready, Bool.eq_false_iff.2 fun a => Bool.eq_false_iff.1 free (other a)⟩

/-- A joint's end (R35, R116). -/
theorem State.TimersSafe.finish {loose : GenId → Prop} (l : s.TimersSafe loose) (o : JointOutcome)
    (f : Option (List Criterion)) (k : Option FaultKind) (h : HeadId) : (finishJoint o f k h s).TimersSafe loose := by
  have own := finishJoint_head_same s o f k h
  have others : ∀ j, j ≠ h → (finishJoint o f k h s).head j = s.head j := fun j n =>
    finishJoint_head_other s o f k n
  have state : ((finishJoint o f k h s).head h).ctx.state = .faulted ∨ ((finishJoint o f k h s).head h).ctx.state = .idle := by
    rw [own, Head.afterJoint]
    dsimp only
    split
    · exact .inl rfl
    · exact .inr rfl
  have ended : (finishJoint o f k h s).holds h = false := by
    rcases state with e | e <;> rw [State.holds, e] <;> rfl
  refine ⟨fun j => ?_, fun g => ?_⟩
  · by_cases n : j = h
    · subst n
      unfold HeadContext.TimersLegal
      rcases state with e | e <;> rw [e, own] <;> exact ⟨rfl, rfl, rfl⟩
    · rw [others j n]; exact l.1 j
  · rw [genHeld_of_ended ended others, finishJoint_gen]
    refine (l.2 g).afterEnd h _ _ genHeld_of_other fun away => ?_
    rw [Bool.eq_iff_iff]
    exact ⟨other_of_genHeld (beq_eq_false_iff_ne.1 away), genHeld_of_other⟩

/-- The start of an idle timer where no head holds the generator leaves it loose no more (R116). -/
theorem State.TimersSafe.startIdle {loose : GenId → Prop} {g : GenId}
    (l : s.TimersSafe fun k => k = g ∨ loose k) : (startIdleIfUnheld g s).TimersSafe loose := by
  rw [startIdleIfUnheld_spec]
  exact l.modGen (fun x => Generator.TimersSafe.start
    ⟨x.wake, x.status, x.limit, x.idle, fun n => absurd trivial n⟩ _) fun k n e => e.resolve_left n

/-- What these laws read of the part after a configuration's change reached one generator. -/
theorem lawPart_reconfigure (old : PartConfig) (g : GenId) (s : State) :
    (reconfigure old g s).lawPart = (s.modGen g fun x => x.reconfigured old s.mu.config g).lawPart := by
  unfold reconfigure
  dsimp only
  split
  · rfl
  · exact lawPart_noticeGenState ..

/-- A generator's change reads the generators. -/
theorem modGen_gens_congr (g : GenId) {f : Generator → Generator} (e : t.gens = s.gens) :
    (t.modGen g f).gens = (s.modGen g f).gens := by cases g <;> simp [State.modGen, e]

/-- A configuration write reaches the two generators and the record, and nothing else these laws read. -/
theorem lawPart_writeConfig (new : PartConfig) (s : State) : (writeConfig new s).lawPart =
    (((s.modMu fun m => { m with config := new }).modGen .a fun x => x.reconfigured s.mu.config new .a).modGen .b
      fun x => x.reconfigured s.mu.config new .b).lawPart := by
  obtain ⟨heads, gens, profiles, slots, config, policy⟩ := lawPart_eq_iff.1
    (lawPart_reconfigure s.mu.config .a (s.modMu fun m => { m with config := new }))
  unfold writeConfig
  dsimp only
  rw [lawPart_reconfigure, config]
  exact lawPart_eq_iff.2 ⟨heads, modGen_gens_congr .b gens, profiles, slots, config, policy⟩

theorem writeConfig_gen (new : PartConfig) (s : State) (g : GenId) :
    (writeConfig new s).gen g = (s.gen g).reconfigured s.mu.config new g := by
  rw [State.gen_of_gens (lawPart_eq_iff.1 (lawPart_writeConfig new s)).2.1 g]
  cases g <;> rfl

/-! ### Resets -/

/-- A reset stops every timer. -/
theorem State.TimersSafe.of_reset {loose : GenId → Prop} (heads : ∀ h, (t.head h).ctx.TimersLegal)
    (gens : ∀ g, ((t.gen g).state = .standby ∨ (t.gen g).state = .off) ∧ (t.gen g).wakeTimer = none
      ∧ (t.gen g).statusTimer = none ∧ (t.gen g).limitTimer = none ∧ (t.gen g).inService = none
      ∧ (t.gen g).idleTimer = none) : t.TimersSafe loose := by
  refine ⟨heads, fun g => ?_⟩
  obtain ⟨state, wake, status, limit, service, idle⟩ := gens g
  have quiet : (t.gen g).state ≠ .ready ∧ (t.gen g).state ≠ .waking := by
    rcases state with e | e <;> rw [e] <;> exact ⟨nofun, nofun⟩
  refine ⟨?_, ?_, ?_, fun e => ?_, fun _ e => absurd e quiet.1⟩
  · rw [wake, beq_eq_false_iff_ne.2 quiet.2]; rfl
  · rw [status, beq_eq_false_iff_ne.2 quiet.1]; rfl
  · rw [limit, service]; rfl
  · rw [idle] at e; cases e

theorem softReset_timersSafe (s : State) (loose : GenId → Prop) : (softReset s).TimersSafe loose := by
  refine .of_reset (fun h => ?_) fun g => ?_
  · rw [softReset_head, Head.softReset]
    unfold HeadContext.TimersLegal
    dsimp only
    split <;> exact ⟨rfl, rfl, rfl⟩
  · rw [softReset_gen]
    refine ⟨?_, rfl, rfl, rfl, rfl, rfl⟩
    cases s.mu.config.hasGen g
    · exact .inr rfl
    · exact .inl rfl

theorem powerOn_timersSafe (straps : BitVec 6) (low : Bool) (s : State) (loose : GenId → Prop) :
    (powerOn straps low s).TimersSafe loose := by
  refine .of_reset (fun h => ?_) fun g => ?_
  · rw [powerOn_head]
    exact ⟨rfl, rfl, rfl⟩
  · rw [powerOn_gen]
    exact ⟨.inr rfl, rfl, rfl, rfl, rfl, rfl⟩

/-! ### The tick -/

@[simp] theorem isSome_tickTimer (t : Option Nat) : (tickTimer t).isSome = t.isSome := by cases t <;> rfl

theorem tick_head (s : State) (h : HeadId) : (tick s).head h = (s.head h).tick := by simp [tick, State.head]

theorem tick_gen (s : State) (g : GenId) : (tick s).gen g = (s.gen g).tick := by cases g <;> rfl

theorem State.TimersSafe.tick {loose : GenId → Prop} (l : s.TimersSafe loose) :
    (tick s).TimersSafe loose := by
  have held : ∀ g, (Machine.tick s).genHeld g = s.genHeld g := fun g => genHeld_congr fun h => by
    rw [State.holds, tick_head]; rfl
  refine ⟨fun h => ?_, fun g => ?_⟩
  · obtain ⟨seg, sample, window⟩ := l.1 h
    rw [tick_head]
    exact ⟨(isSome_tickTimer _).trans seg, (isSome_tickTimer _).trans sample, (isSome_tickTimer _).trans window⟩
  · obtain ⟨wake, status, limit, idle, runs⟩ := l.2 g
    rw [tick_gen, held]
    exact ⟨(isSome_tickTimer _).trans wake, (isSome_tickTimer _).trans status, (isSome_tickTimer _).trans limit,
      fun e => idle ((isSome_tickTimer _).symm.trans e),
      fun tight ready free => (isSome_tickTimer _).trans (runs tight ready free)⟩

/-! ### The generator's side of a joint's begin -/

/-- A head that takes its generator holds it, whose idle timer stops. -/
theorem State.TimersSafe.claim {loose : GenId → Prop} (l : s.TimersSafe loose) {h : HeadId} {g : GenId}
    (idle : (s.head h).ctx.state = .idle ∨ (s.head h).ctx.state = .waitGen)
    (bound : (s.head h).cfg.binding = some g) :
    ((s.modGen g Generator.unidle).modHead h Head.waiting).TimersSafe loose := by
  have unidle : (s.modGen g Generator.unidle).TimersSafe fun k => k = g ∨ loose k :=
    l.modGen (fun ⟨wake, status, limit, _, _⟩ => ⟨wake, status, limit, nofun, fun n => absurd (.inl rfl) n⟩)
      fun _ _ => .inr
  have waits := unidle.waiting (h := h) (by rw [State.head_modGen]; exact idle) fun k e => by
    rw [State.head_modGen, bound] at e
    cases e
    rw [State.gen_modGen_same]; rfl
  refine ⟨waits.1, fun k => ?_⟩
  obtain ⟨wake, status, limit, idleOf, runs⟩ := waits.2 k
  refine ⟨wake, status, limit, idleOf, fun tight ready free => runs ?_ ready free⟩
  rintro (rfl | lax)
  · have held : ((s.modGen k Generator.unidle).modHead h Head.waiting).genHeld k = true :=
      (genHeld_iff k).2 ⟨h, by rw [State.holds, State.head_modHead_same]; rfl,
        by rw [State.head_modHead_same, State.head_modGen]; exact bound⟩
    rw [held] at free; cases free
  · exact tight lax

/-- A WAKING generator made READY has its status timer running, and its idle timer still stands (R113). -/
theorem State.TimersSafe.wakesUp {loose : GenId → Prop} (l : s.TimersSafe loose) {g : GenId}
    (waking : (s.gen g).state = .waking) (span : Nat) :
    (s.modGen g fun x => { x with state := .ready, wakeTimer := none, statusTimer := some span }).TimersSafe
      fun k => k = g ∨ loose k := by
  refine l.modGen (fun ⟨_, _, limit, idle, _⟩ => ⟨rfl, rfl, limit, fun e => ?_, fun n => absurd (.inl rfl) n⟩)
    fun _ _ => .inr
  have ready := (idle e).1
  rw [waking] at ready; cases ready

theorem State.TimersSafe.writeConfig {loose : GenId → Prop} (l : s.TimersSafe loose) (new : PartConfig) :
    (writeConfig new s).TimersSafe loose := by
  obtain ⟨heads, -⟩ := lawPart_eq_iff.1 (lawPart_writeConfig new s)
  have same : ({ s with gens := (Machine.writeConfig new s).gens } : State).TimersSafe loose :=
    ⟨l.1, fun g => by
      have changed := Generator.reconfigured_timersSafe (l.2 g) s.mu.config new g
      rw [← writeConfig_gen] at changed
      exact changed⟩
  exact same.congr heads fun _ => State.gen_of_gens rfl _

/-! ### Every run of moves -/

/-- Every run of moves keeps the timers' law. -/
theorem Moves.timersSafe (m : Moves s t) {loose : GenId → Prop} (l : s.TimersSafe loose) : t.TimersSafe loose := by
  induction m generalizing loose with
  | quiet e =>
    obtain ⟨heads, gens, -⟩ := lawPart_eq_iff.1 e
    exact l.congr heads fun g => State.gen_of_gens gens g
  | trans _ _ first later => exact later (first l)
  | head move => exact l.modHead move.timers.1 move.timers.2
  | gen move => exact l.modGen move.timersSafe fun _ _ => id
  | wait idle away =>
    refine l.waiting idle fun g bound => ?_
    rw [← Option.not_isSome_iff_eq_none]
    exact fun e => away g bound ((l.2 g).idle e).1
  | claim idle bound => exact l.claim idle bound
  | finish o f k h => exact l.finish o f k h
  | ready waking _ turns => exact (turns (l.wakesUp waking _)).startIdle
  | profile | policy | exclusions | slot => exact l.congr (fun _ => rfl) fun _ => State.gen_of_gens rfl _
  | config w a b order => exact l.writeConfig _
  | tick => exact l.tick
  | softReset => exact softReset_timersSafe _ _
  | powerOn straps low => exact powerOn_timersSafe straps low _ _

/-- What the port does apart, the law of the timers reads the part these laws read. -/
theorem stepKeepsTimers (joints : s.JointsLegal) (timers : s.TimersLegal) (e : step s = .next t) : t.TimersLegal :=
  timersSafe_iff.1 ((step_moves_of_joints joints e).timersSafe (timersSafe_iff.2 timers))

end Sys2Proof.Machine

namespace Sys2Proof.Proofs

open Sys2Proof.Machine

/-- Settles O55: a step is a run of moves, and each keeps every timer where its rule lets it run. -/
theorem stepKeepsTimersLegal : Obligations.StepKeepsTimersLegal := by
  unfold Obligations.StepKeepsTimersLegal
  intro s t joints timers e
  exact stepKeepsTimers joints timers e

end Sys2Proof.Proofs
end

section
/-! PROOFS. Every run of moves keeps the law of heat: temperatures, integrator and demand in range, and no demand
outside RUNNING (R39, R49, R56, R57, R61, R63-R66). -/

namespace Sys2Proof.Machine

variable {s t u : State}

/-! ### The law on one head -/

/-- `State.HeatLegal` of a head whose current segment is `seg`. -/
structure Head.HeatSafe (x : Head) (seg : Option Segment) : Prop where
  filtered : atMost 12000 x.hcu.filtered
  origin : atMost 12000 x.ctx.rampOrigin
  peak : x.ctx.peak ≤ 12000
  setpoint : x.hcu.setpoint ≤ 12000
  integrator : x.hcu.integrator ≤ 2500
  rests : x.ctx.state ≠ .running → x.hcu.demand = 0
  runs : x.ctx.state = .running → ∀ g, seg = some g → x.hcu.integrator ≤ g.ceiling ∧ x.hcu.demand ≤ g.ceiling
  sample : ∀ m, x.hcu.lastSample = some m → m.temp ≤ 12000 ∧ m.current ≤ 4000
  record : ∀ q, x.ctx.suspendRec = some q → q.Legal

theorem heatLegal_iff (h : HeadId) : s.HeatLegal h ↔ (s.head h).HeatSafe (s.segment h) :=
  ⟨fun ⟨filtered, origin, peak, setpoint, integrator, rests, runs, sample, record⟩ =>
    ⟨filtered, origin, peak, setpoint, integrator, rests, runs, sample, record⟩,
   fun ⟨filtered, origin, peak, setpoint, integrator, rests, runs, sample, record⟩ =>
    ⟨filtered, origin, peak, setpoint, integrator, rests, runs, sample, record⟩⟩

/-- The law where the head is not RUNNING: its segment plays no part. -/
theorem Head.HeatSafe.resting {x : Head} {seg seg' : Option Segment} (l : x.HeatSafe seg)
    (still : x.ctx.state ≠ .running) : x.HeatSafe seg' :=
  { l with runs := fun running => absurd running still }

/-! ### Values in range -/

theorem filterUpdate_atMost {m w : Nat} {tf : Option Nat} (old : atMost 12000 tf) (temp : m ≤ 12000) (weight : w ≤ 16) :
    atMost 12000 (filterUpdate tf m w) := by
  cases tf with
  | none => exact temp
  | some f => exact (filterStep_between weight).2.trans (max_le old temp)

theorem peakAfter_le {peak : Nat} {tf : Option Nat} (old : peak ≤ 12000) (l : atMost 12000 tf) :
    peakAfter peak tf ≤ 12000 := by
  cases tf with
  | none => exact old
  | some f => exact max_le old l

/-- A stored segment's target and ceiling are in range (R6-R8, R13). -/
theorem Recipe.Legal.segment_le {rc : Recipe} (l : rc.Legal) {seg : Segment} (mem : seg ∈ rc.segments) :
    seg.target ≤ 12000 ∧ seg.ceiling ≤ 2500 := by
  obtain ⟨-, -, -, maxTemp, -, -, -, -, -, segments⟩ := l
  have legal := segments seg mem
  cases seg with
  | ramp => exact ⟨legal.1.trans maxTemp, legal.2.2.2.2.2.2⟩
  | soak => exact ⟨legal.1.trans maxTemp, legal.2.2.2⟩
  | cool => exact ⟨legal.1.trans maxTemp, Nat.zero_le _⟩

theorem recipe_legal (legal : s.ProfilesLegal) {h : HeadId} {rc : Recipe} (e : s.recipe h = some rc) : rc.Legal := by
  obtain ⟨p, -, stored⟩ := Option.bind_eq_some_iff.1 e
  exact legal p rc stored

/-- The Heat Control Unit's values at a segment's entry are in range (R65). -/
theorem Hcu.atEntry_le (x : Hcu) (seg : Segment) (origin : Option Nat) (offset : Nat)
    (setpoint : x.setpoint ≤ 12000) (target : seg.target ≤ 12000) :
    (x.atEntry seg origin offset).setpoint ≤ 12000 ∧ (x.atEntry seg origin offset).integrator ≤ seg.ceiling
      ∧ (x.atEntry seg origin offset).demand ≤ seg.ceiling ∧ (x.atEntry seg origin offset).filtered = x.filtered
      ∧ (x.atEntry seg origin offset).lastSample = x.lastSample := by
  cases seg with
  | ramp =>
    refine ⟨?_, Nat.min_le_right .., Nat.min_le_right .., rfl, rfl⟩
    cases origin with
    | none => exact setpoint
    | some o => exact (rampSetpoint_le ..).trans target
  | soak => exact ⟨target, Nat.min_le_right .., Nat.min_le_right .., rfl, rfl⟩
  | cool => exact ⟨Nat.zero_le _, Nat.zero_le _, Nat.zero_le _, rfl, rfl⟩

/-- Setpoint and control law leave integrator and demand within the segment's ceiling (R61, R63, R64). -/
theorem Hcu.steer_le (x : Hcu) (p : Params) (seg : Segment) (origin : Option Nat) (elapsed : Nat)
    (setpoint : x.setpoint ≤ 12000) (target : seg.target ≤ 12000) (integrator : x.integrator ≤ seg.ceiling)
    (demand : x.demand ≤ seg.ceiling) :
    (x.steer p seg origin elapsed).setpoint ≤ 12000 ∧ (x.steer p seg origin elapsed).integrator ≤ seg.ceiling
      ∧ (x.steer p seg origin elapsed).demand ≤ seg.ceiling ∧ (x.steer p seg origin elapsed).filtered = x.filtered
      ∧ (x.steer p seg origin elapsed).lastSample = x.lastSample := by
  have controls : ∀ sp tf c, sp ≤ 12000 → (x.control p sp tf c).setpoint ≤ 12000 ∧ (x.control p sp tf c).integrator ≤ c
      ∧ (x.control p sp tf c).demand ≤ c ∧ (x.control p sp tf c).filtered = x.filtered
      ∧ (x.control p sp tf c).lastSample = x.lastSample := fun sp tf c le =>
    have ⟨integrator, demand, _, filtered, _, last, _⟩ := control_spec x p sp tf c
    ⟨le, integrator, demand, filtered, last⟩
  unfold Hcu.steer
  split
  · exact ⟨Nat.zero_le _, integrator, demand, rfl, rfl⟩
  · exact ⟨setpoint, integrator, demand, rfl, rfl⟩
  · split
    · exact ⟨setpoint, integrator, Nat.zero_le _, rfl, rfl⟩
    · exact controls _ _ _ ((rampSetpoint_le ..).trans target)
  · exact controls _ _ _ target

/-! ### Moves of one head -/

/-- Steps 2 to 5 of R54 keep the law: the filter stays between its temperature and the sample's (R55-R57). -/
theorem Head.HeatSafe.measured {x : Head} {seg : Option Segment} (l : x.HeatSafe seg) (m : TakenSample) {p : Params}
    (ramp : Bool) (now : Word32) (cap : Nat) (temp : m.temp ≤ 12000) (weight : p.weight ≤ 16) :
    (x.measured m p ramp now cap).HeatSafe seg := by
  let tf := if m.quality.usable then filterUpdate x.hcu.filtered m.temp (m.quality.weight p.weight)
    else x.hcu.filtered
  have filtered : atMost 12000 tf := by
    simp only [tf]; split
    · exact filterUpdate_atMost l.filtered temp (weight_le _ weight)
    · exact l.filtered
  refine ⟨filtered, ?_, ?_, l.setpoint, l.integrator, l.rests, l.runs, l.sample, l.record⟩
  · simp only [Head.measured]; split
    · exact filtered
    · exact l.origin
  · simp only [Head.measured]; split
    · exact peakAfter_le l.peak (filterUpdate_atMost l.filtered temp (weight_le _ weight))
    · exact l.peak

/-- What a suspend record takes of a head in range is in range (R39). -/
theorem suspendRecord_legal {h : HeadId} {seg : Option Segment} (l : (s.head h).HeatSafe seg) (cause : SuspendCause) :
    (s.suspendRecord h cause).Legal := ⟨l.filtered, l.origin, l.setpoint, l.integrator, l.peak⟩

/-- The set-up of a resume keeps the law (R43). -/
theorem Head.HeatSafe.resumedFrom {x : Head} {seg seg' : Option Segment} (l : x.HeatSafe seg) {q : SuspendRecord}
    (k : Nat) (cont : Bool) (still : x.ctx.state ≠ .running) (record : x.ctx.suspendRec = some q) :
    (x.resumedFrom q k cont).HeatSafe seg' := by
  obtain ⟨-, origin, -, integrator, -⟩ := l.record q record
  refine ⟨l.filtered, ?_, l.peak, l.setpoint, ?_, fun _ => rfl, fun running => absurd running still, l.sample, l.record⟩
  · simp only [Head.resumedFrom]; split
    · exact origin
    · exact l.origin
  · simp only [Head.resumedFrom]; split
    · exact integrator
    · exact Nat.zero_le _

/-- Every head without a segment's power waits in range. -/
theorem Head.HeatSafe.waiting {x : Head} {seg seg' : Option Segment} (l : x.HeatSafe seg)
    (still : x.ctx.state ≠ .running) : x.waiting.HeatSafe seg' :=
  ⟨l.filtered, l.origin, l.peak, l.setpoint, l.integrator, fun _ => l.rests still, nofun, l.sample, l.record⟩

/-- The end of a joint takes the demand and the suspend record away (R35). -/
theorem Head.HeatSafe.afterJoint {x : Head} {seg seg' : Option Segment} (l : x.HeatSafe seg) (o : JointOutcome) :
    (x.afterJoint o).HeatSafe seg' := by
  refine ⟨l.filtered, l.origin, l.peak, l.setpoint, l.integrator, fun _ => rfl, fun running => ?_, l.sample, nofun⟩
  simp only [Head.afterJoint] at running
  split at running <;> cases running

/-- The segment a head stands in, read from its context. -/
def State.segmentOf (s : State) (x : Head) : Option Segment :=
  (x.ctx.profile.bind fun p => (s.profile p).recipe).bind fun r => r.segments[x.ctx.segIndex]?

theorem segment_eq_segmentOf (s : State) (h : HeadId) : s.segment h = s.segmentOf (s.head h) := rfl

/-- Every move of a head keeps the law (R39, R54, R65). -/
theorem HeadMove.heatSafe {h : HeadId} {y : Head} (move : HeadMove s h y) (profiles : s.ProfilesLegal)
    (l : (s.head h).HeatSafe (s.segment h)) : y.HeatSafe (s.segmentOf y) := by
  cases move with
  | keeps m temp current => exact { l with sample := fun _ e => by cases e; exact ⟨temp, current⟩ }
  | measures m rc recipe temp ramp =>
    obtain ⟨-, -, -, -, -, -, weight, -⟩ := recipe_legal profiles recipe
    exact l.measured m ramp _ _ temp weight
  | couples m => exact { l with }
  | steers p seg elapsed running segment =>
    obtain ⟨rc, recipe, at_index⟩ := segment_eq_some_iff.1 segment
    obtain ⟨target, ceiling⟩ := (recipe_legal profiles recipe).segment_le (List.mem_of_getElem? at_index)
    obtain ⟨integrator, demand⟩ := l.runs running seg segment
    obtain ⟨setpoint', integrator', demand', filtered', last'⟩ := (s.head h).hcu.steer_le p seg (s.head h).ctx.rampOrigin
      elapsed l.setpoint target integrator demand
    refine ⟨?_, l.origin, l.peak, setpoint', integrator'.trans ceiling, fun still => absurd running still,
      fun _ g e => ?_, ?_, l.record⟩
    · dsimp only; rw [filtered']; exact l.filtered
    · obtain rfl : seg = g := Option.some.inj (segment.symm.trans e)
      exact ⟨integrator', demand'⟩
    · dsimp only; rw [last']; exact l.sample
  | suspends cause held =>
    refine ⟨l.filtered, l.origin, l.peak, l.setpoint, l.integrator, fun _ => rfl, nofun, l.sample, fun q e => ?_⟩
    obtain rfl : s.suspendRecord h cause = q := Option.some.inj e
    exact suspendRecord_legal l cause
  | enters rc i done seg recipe segment live =>
    obtain ⟨target, ceiling⟩ := (recipe_legal profiles recipe).segment_le (List.mem_of_getElem? segment)
    let x := (s.head h).atSegment i done
    let y := x.enter seg s.timebase s.threeSlots
    have origin : atMost 12000 y.ctx.rampOrigin := by
      have entry : atMost 12000 x.entryOrigin := by
        unfold Head.entryOrigin
        split
        · exact l.origin
        · exact l.filtered
      cases seg with
      | ramp => exact entry
      | soak | cool => exact l.origin
    obtain ⟨setpoint, integrator, demand, filtered, last⟩ := x.hcu.atEntry_le seg y.ctx.rampOrigin x.ctx.entryOffset
      l.setpoint target
    refine ⟨?_, origin, l.peak, setpoint, integrator.trans ceiling, fun still => absurd rfl still, fun _ g e => ?_, ?_,
      l.record⟩
    · change atMost 12000 (x.hcu.atEntry seg y.ctx.rampOrigin x.ctx.entryOffset).filtered
      rw [filtered]; exact l.filtered
    · have stands : s.segmentOf y = some seg := by
        change (s.recipe h).bind (fun r => r.segments[i]?) = some seg
        rw [recipe]; exact segment
      obtain rfl : seg = g := Option.some.inj (stands.symm.trans e)
      exact ⟨integrator, demand⟩
    · change ∀ m, (x.hcu.atEntry seg y.ctx.rampOrigin x.ctx.entryOffset).lastSample = some m → _
      rw [last]; exact l.sample
  | prepares p serial idle =>
    exact ⟨trivial, trivial, Nat.zero_le _, Nat.zero_le _, Nat.zero_le _, fun _ => rfl,
      (fun running => nomatch idle.symm.trans running), l.sample, nofun⟩
  | resumes q k cont suspended record =>
    exact (l.resumedFrom (seg' := none) k cont (by rw [suspended]; nofun) record).waiting
      (by change (s.head h).ctx.state ≠ _; rw [suspended]; nofun)
  | rests on st before after =>
    have still : (s.head h).ctx.state ≠ .running := beq_eq_false_iff_ne.1 (state_ne_of_free before).1
    exact ⟨l.filtered, l.origin, l.peak, l.setpoint, l.integrator, fun _ => l.rests still,
      fun running => absurd running (beq_eq_false_iff_ne.1 (state_ne_of_free after).1), l.sample, l.record⟩
  | configures w b free => exact { l with }

/-! ### Every run of moves -/

/-- The law of heat under legal profiles. -/
def State.HeatKept (s : State) : Prop := s.ProfilesLegal ∧ ∀ h, (s.head h).HeatSafe (s.segment h)

/-- The law is read from the heads and the profiles. -/
theorem State.HeatKept.congr (l : s.HeatKept) (heads : ∀ h, (t.head h).bare = (s.head h).bare)
    (profiles : t.profiles = s.profiles) : t.HeatKept := by
  have same := State.profile_of_profiles profiles
  refine ⟨fun p r e => l.1 p r (by rw [← same]; exact e), fun h => ?_⟩
  have ctx : (t.head h).ctx.bare = (s.head h).ctx.bare := congrArg Prod.fst (heads h)
  have hcu : (t.head h).hcu = (s.head h).hcu := congrArg (fun x => x.2.2) (heads h)
  have state : (t.head h).ctx.state = (s.head h).ctx.state := congrArg (fun c => c.state) ctx
  have origin : (t.head h).ctx.rampOrigin = (s.head h).ctx.rampOrigin := congrArg (fun c => c.rampOrigin) ctx
  have peak : (t.head h).ctx.peak = (s.head h).ctx.peak := congrArg (fun c => c.peak) ctx
  have record : (t.head h).ctx.suspendRec = (s.head h).ctx.suspendRec := congrArg (fun c => c.suspendRec) ctx
  have profile : (t.head h).ctx.profile = (s.head h).ctx.profile := congrArg (fun c => c.profile) ctx
  have index : (t.head h).ctx.segIndex = (s.head h).ctx.segIndex := congrArg (fun c => c.segIndex) ctx
  have segment : t.segment h = s.segment h := by
    rw [State.segment, State.segment, State.recipe, State.recipe, profile, index]
    simp only [same]
  obtain ⟨filtered, rampOrigin, peakLe, setpoint, integrator, rests, runs, sample, suspendRec⟩ := l.2 h
  constructor <;> simpa only [hcu, state, origin, peak, record, segment]

/-- A change of one head that keeps the law of that head. -/
theorem State.HeatKept.modHead (l : s.HeatKept) {h : HeadId} {f : Head → Head}
    (safe : (f (s.head h)).HeatSafe (s.segmentOf (f (s.head h)))) : (s.modHead h f).HeatKept := by
  refine ⟨l.1, fun k => ?_⟩
  rw [segment_eq_segmentOf]
  by_cases n : k = h
  · subst n; rw [State.head_modHead_same]; exact safe
  · rw [State.head_modHead_other _ _ n]; exact l.2 k

theorem State.HeatKept.modGen (l : s.HeatKept) (g : GenId) (f : Generator → Generator) : (s.modGen g f).HeatKept :=
  l.congr (fun h => by rw [State.head_modGen]) (State.modGen_profiles ..)

/-- A joint's end (R35). -/
theorem State.HeatKept.finish (l : s.HeatKept) (o : JointOutcome) (f : Option (List Criterion))
    (k : Option FaultKind) (h : HeadId) : (finishJoint o f k h s).HeatKept := by
  have ended : (s.modHead h fun x => x.afterJoint o).HeatKept := l.modHead ((l.2 h).afterJoint o)
  refine ended.congr (fun j => ?_) (finishJoint_others s o f k h).profiles
  by_cases n : j = h
  · subst n; rw [finishJoint_head_same, State.head_modHead_same]
  · rw [finishJoint_head_other _ _ _ _ n, State.head_modHead_other _ _ n]

/-- A profile written while no joint is bound to it, or whose contents stay. -/
theorem State.HeatKept.modProfile (l : s.HeatKept) {p : ProfileId} {f : ProfileRecord → ProfileRecord}
    (stays : s.inUse p = false ∨ (f (s.profile p)).recipe = (s.profile p).recipe)
    (legal : ∀ r, (f (s.profile p)).recipe = some r → r.Legal) : (s.modProfile p f).HeatKept := by
  refine ⟨fun k r e => ?_, fun h => ?_⟩
  · by_cases n : k = p
    · subst n; rw [State.profile_modProfile_same] at e; exact legal r e
    · rw [State.profile_modProfile_other _ _ n] at e; exact l.1 k r e
  · rw [State.head_modProfile]
    rcases stays with unused | same
    · by_cases running : (s.head h).ctx.state = .running
      · have bound := (inUse_eq_false_iff p).1 unused h (by rw [State.holds, running]; rfl)
        have segment : (s.modProfile p f).segment h = s.segment h := by
          simp only [State.segment, State.recipe, State.head_modProfile]
          cases e : (s.head h).ctx.profile with
          | none => rfl
          | some k =>
            have n : k ≠ p := by rintro rfl; exact bound e
            simp only [Option.bind_some, State.profile_modProfile_other _ _ n]
        rw [segment]; exact l.2 h
      · exact (l.2 h).resting running
    · have recipes : ∀ k, ((s.modProfile p f).profile k).recipe = (s.profile k).recipe := fun k => by
        by_cases n : k = p
        · subst n; rw [State.profile_modProfile_same, same]
        · rw [State.profile_modProfile_other _ _ n]
      have segment : (s.modProfile p f).segment h = s.segment h := by
        simp only [State.segment, State.recipe, State.head_modProfile, recipes]
      rw [segment]; exact l.2 h

/-- A head after either reset. -/
theorem Head.heatSafe_reset (x : Head) {seg : Option Segment} {st : HeadState} (still : st ≠ .running) :
    Head.HeatSafe { x with ctx := { HeadContext.reset with state := st }, hcu := .reset } seg :=
  ⟨trivial, trivial, Nat.zero_le _, Nat.zero_le _, Nat.zero_le _, fun _ => rfl, fun running => absurd running still,
    nofun, nofun⟩

theorem softReset_heatKept (l : s.HeatKept) : (softReset s).HeatKept := by
  refine ⟨l.1, fun h => ?_⟩
  rw [softReset_head]
  refine (s.head h).softReset.heatSafe_reset ?_
  split <;> nofun

theorem powerOn_heatKept (straps : BitVec 6) (low : Bool) (s : State) : (powerOn straps low s).HeatKept := by
  refine ⟨fun p r e => ?_, fun h => ?_⟩
  · have empty : (powerOn straps low s).profile p = ⟨none, false, 0⟩ := by
      simp [powerOn, State.reset, State.profile]
    rw [empty] at e; cases e
  · rw [powerOn_head]
    exact Head.powerOn.heatSafe_reset nofun

/-- Every run of moves keeps the law of heat. -/
theorem Moves.heatKept (m : Moves s t) (l : s.HeatKept) : t.HeatKept := by
  induction m with
  | quiet e =>
    obtain ⟨heads, -, profiles, -⟩ := lawPart_eq_iff.1 e
    exact l.congr heads profiles
  | trans _ _ first later => exact later (first l)
  | head move => exact l.modHead (move.heatSafe l.1 (l.2 _))
  | gen => exact l.modGen _ _
  | wait idle => exact l.modHead ((l.2 _).waiting (by rcases idle with e | e <;> rw [e] <;> nofun))
  | claim idle =>
    refine (l.modGen _ _).modHead (((l.modGen _ _).2 _).waiting ?_)
    rw [State.head_modGen]
    rcases idle with e | e <;> rw [e] <;> nofun
  | finish o f k h => exact l.finish o f k h
  | ready _ _ turns =>
    rw [startIdleIfUnheld_spec]
    exact (turns (l.modGen _ _)).modGen _ _
  | profile stays legal => exact l.modProfile stays (legal l.1)
  | policy | exclusions | slot => exact l.congr (fun _ => rfl) rfl
  | config w a b order =>
    obtain ⟨heads, -, profiles, -⟩ := lawPart_eq_iff.1 (lawPart_writeConfig (clampConfig w a b) _)
    exact l.congr (fun h => (heads h).trans rfl) profiles
  | tick s =>
    refine ⟨l.1, fun h => ?_⟩
    rw [segment_eq_segmentOf, tick_head]
    exact { l.2 h with }
  | softReset => exact softReset_heatKept l
  | powerOn straps low => exact powerOn_heatKept straps low _

theorem heatKept_iff : s.HeatKept ↔ s.ProfilesLegal ∧ s.HeatsLegal :=
  and_congr_right fun _ => forall_congr' fun h => (heatLegal_iff h).symm

/-- A RESUME HEAD that strays keeps the law too: the head stays SUSPENDED (R43, log 24). -/
theorem Strays.heatKept (m : Strays s t) (l : s.HeatKept) : t.HeatKept := by
  cases m with
  | starts h p serial g illegal => exact absurd l.1 illegal
  | resumes h q k cont g illegal suspended record =>
    exact (l.modHead ((l.2 h).resumedFrom k cont (by rw [suspended]; nofun) record)).modGen _ _

theorem step_heatKept (l : s.HeatKept) (e : step s = .next t) : t.HeatKept := by
  rcases step_moves e with moves | ⟨u, v, before, strays, after⟩
  · exact moves.heatKept l
  · have alike : ∀ {a b : State}, b.inner = a.inner → a.HeatKept → b.HeatKept := fun same kept =>
      (Moves.quiet (lawPart_of_inner same)).heatKept kept
    exact alike after (strays.heatKept (alike before l))

end Sys2Proof.Machine

namespace Sys2Proof.Proofs

open Sys2Proof.Machine

/-- Settles O57: a step is a run of moves, each of which keeps the law of heat under legal profiles, or a RESUME HEAD
that leaves its head SUSPENDED. -/
theorem stepKeepsHeatLegal : Obligations.StepKeepsHeatLegal := by
  unfold Obligations.StepKeepsHeatLegal
  intro s t profiles heats e
  exact (heatKept_iff.1 (step_heatKept (heatKept_iff.2 ⟨profiles, heats⟩) e)).2

end Sys2Proof.Proofs
end

section
/-! PROOFS. Every run of moves keeps the phase tables, the exclusion pairs, the configuration, the policy and the
generators' records legal (R22, R75, R78, R80, R86, R110, R111, R119, R120, R140, R194). -/

namespace Sys2Proof.Machine

variable {s t u : State}

/-! ### What a command's byte lists carry -/

/-- A list that is read entry by entry stands against what was read. -/
theorem forall₂_of_mapM {α β : Type} {f : α → Option β} {xs : List α} {ys : List β} (e : xs.mapM f = some ys) :
    List.Forall₂ (fun x y => f x = some y) xs ys := by
  induction xs generalizing ys with
  | nil =>
    obtain rfl : [] = ys := Option.some.inj e
    exact .nil
  | cons x xs ih =>
    simp only [List.mapM_cons, Option.bind_eq_bind, Option.bind_eq_some_iff, Option.pure_def, Option.some.injEq] at e
    obtain ⟨y, first, rest, later, rfl⟩ := e
    exact .cons first (ih later)

theorem pairOf_ne {p : Byte × Byte} {q : HeadId × HeadId} (e : pairOf p = some q) : q.1 ≠ q.2 := by
  unfold pairOf at e
  split at e
  · split at e
    · cases e
    · next ne => cases e; exact ne
  · cases e

/-- The pairs a WRITE EXCLUSIONS carries are of different heads (R86). -/
theorem pairs_ne {ps : List (Byte × Byte)} {l : List (HeadId × HeadId)} (e : ps.mapM pairOf = some l) :
    ∀ q ∈ l, q.1 ≠ q.2 := by
  intro q mem
  obtain ⟨i, inside, rfl⟩ := List.mem_iff_getElem.1 mem
  obtain ⟨len, read⟩ := List.forall₂_iff_get.1 (forall₂_of_mapM e)
  exact pairOf_ne (read i (len ▸ inside) inside)

theorem samePair_comm (p q : HeadId × HeadId) : samePair p q = samePair q p := by
  rw [Bool.eq_iff_iff]
  simp only [samePair, Bool.or_eq_true, Bool.and_eq_true, beq_iff_eq]
  constructor <;> (rintro (⟨a, b⟩ | ⟨a, b⟩); exacts [.inl ⟨a.symm, b.symm⟩, .inr ⟨b.symm, a.symm⟩])

/-- Pairs of different heads, each once. -/
def PairsLegal (l : List (HeadId × HeadId)) : Prop :=
  (l.Pairwise fun p q => samePair p q = false) ∧ ∀ p ∈ l, p.1 ≠ p.2

theorem addPair_legal {acc : List (HeadId × HeadId)} (l : PairsLegal acc) {p : HeadId × HeadId} (ne : p.1 ≠ p.2) :
    PairsLegal (addPair acc p) := by
  unfold addPair
  split
  · exact l
  next fresh =>
  simp only [List.any_eq_true, not_exists, not_and, Bool.not_eq_true] at fresh
  refine ⟨List.pairwise_append.2 ⟨l.1, List.pairwise_singleton .., fun a mem b same => ?_⟩, fun q mem => ?_⟩
  · rw [List.mem_singleton.1 same, samePair_comm]; exact fresh a mem
  · rcases List.mem_append.1 mem with old | new
    · exact l.2 q old
    · rw [List.mem_singleton.1 new]; exact ne

/-- The distinct pairs of a list are distinct (R86). -/
theorem distinctPairs_legal {l : List (HeadId × HeadId)} (ne : ∀ p ∈ l, p.1 ≠ p.2) : PairsLegal (distinctPairs l) := by
  suffices h : ∀ acc, PairsLegal acc → PairsLegal (l.foldl addPair acc) from h [] ⟨.nil, nofun⟩
  induction l with
  | nil => exact fun _ legal => legal
  | cons p l ih =>
    exact fun acc legal => ih (fun q mem => ne q (.tail _ mem)) _ (addPair_legal legal (ne p (.head _)))

/-- No accepted policy gives a kind of fixed severity another one (R140, R141). -/
theorem policyOf_fixed {es : List (Byte × Byte)} {v : Vector PolicyEntry 9} (e : policyOf es = some v)
    (k : FaultKind) (fixed : k.fixedAbort = true) : v[k.idx].severity = .abort := by
  unfold policyOf at e
  split at e
  swap
  · cases e
  next length =>
  split at e
  swap
  · cases e
  next l read =>
  split at e
  swap
  · cases e
  next size =>
  cases e
  obtain ⟨len, entries⟩ := List.forall₂_iff_get.1 (forall₂_of_mapM read)
  have inside : k.idx.val < l.length := by have := k.idx.isLt; rw [List.size_toArray] at size; omega
  have entry := entries k.idx.val (len ▸ inside) inside
  have kind : FaultKind.all[k.idx.val]'(by cases k <;> decide) = k := by cases k <;> rfl
  simp only [List.get_eq_getElem, List.getElem_zip, kind] at entry
  change (l[k.idx.val]'inside).severity = .abort
  unfold policyEntry at entry
  split at entry
  swap
  · cases entry
  next sev _ _ =>
  split at entry
  · cases entry
  next allowed =>
  rw [← Option.some.inj entry]
  cases sev with
  | suspend => exact absurd ⟨fixed, rfl⟩ allowed
  | abort => rfl

/-- The clamps of a WRITE PART CONFIG leave every field in range (R194, R195). -/
theorem clampConfig_legal (w : PartConfigArg) (a b : RescueMode)
    (order : (clampConfig w a b).vt < (clampConfig w a b).vf) : (clampConfig w a b).Legal := by
  simp only [clampConfig] at order
  simp only [PartConfig.Legal, clampConfig, clampRange]
  omega

/-! ### Generators -/

/-- A written table is legal (R78). -/
theorem PhaseTable.written_legal (x : PhaseTable) (start : Nat) (es : List (Option HeadId)) {len : Nat}
    (short : len ≤ 32) : (x.written start es len).Legal := by
  refine ⟨short, fun i beyond => ?_⟩
  have beyond : len ≤ i.val := beyond
  simp [PhaseTable.written, beyond]

/-- Tables and pointer of a generator, the pointer's two cases apart (R75). -/
theorem Generator.tablesLegal_of {x : Generator} (active : x.active.Legal) (staged : x.staged.Legal)
    (empty : x.pointer = none → x.active.length = 0) (inside : ∀ i, x.pointer = some i → i < x.active.length) :
    x.TablesLegal := by
  refine ⟨active, staged, ?_⟩
  split
  · next e => exact empty e
  · next i e => exact inside i e

/-- The pointer's next value is inside a table that has entries, and none otherwise (R76). -/
theorem advancePointer_cases (len : Nat) (p : Option Nat) :
    (len = 0 ∧ advancePointer len p = none) ∨ ∃ i, i < len ∧ advancePointer len p = some i := by
  unfold advancePointer
  split
  · next e => exact .inl ⟨e, rfl⟩
  next ne =>
  refine .inr ?_
  cases p with
  | none => exact ⟨0, Nat.pos_of_ne_zero ne, rfl⟩
  | some i =>
    by_cases next : i + 1 < len
    · exact ⟨i + 1, next, if_pos next⟩
    · exact ⟨0, Nat.pos_of_ne_zero ne, if_neg next⟩

/-- The laws of a generator's record under a part configuration: `State.GenLegal` and `Generator.TablesLegal`. -/
structure Generator.Lawful (x : Generator) (c : PartConfig) (g : GenId) : Prop where
  off : x.state = .off ↔ c.hasGen g = false
  bare : x.state = .off → x.reported = none ∧ x.bus = none ∧ x.cause = .none
  budget : x.budget = c.budget g x.bus
  cause : x.state = .faulted → x.cause ≠ .none
  tables : x.TablesLegal

/-- A generator between two states other than OFF. -/
theorem Generator.off_iff_of_live {a b : GenState} {p : Prop} (off : a = .off ↔ p) (before : a ≠ .off)
    (after : b ≠ .off) : b = .off ↔ p :=
  ⟨fun e => absurd e after, fun e => absurd (off.2 e) before⟩

/-- Every move of a generator keeps its laws. -/
theorem GenMove.lawful {g : GenId} {y : Generator} (move : GenMove s g y) (l : (s.gen g).Lawful s.mu.config g) :
    y.Lawful s.mu.config g := by
  obtain ⟨off, bare, budget, cause, tables⟩ := l
  obtain ⟨active, staged, pointer⟩ := tables
  cases move with
  | faults why live reason =>
    exact ⟨Generator.off_iff_of_live off live nofun, nofun, budget, fun _ => reason, active, staged, pointer⟩
  | frees | grants | drives | loads => exact ⟨off, bare, budget, cause, active, staged, pointer⟩
  | reports r v live => exact ⟨off, fun e => absurd e live, rfl, cause, active, staged, pointer⟩
  | wakes timeout standby =>
    exact ⟨Generator.off_iff_of_live off (by rw [standby]; nofun) nofun, nofun, budget, nofun, active, staged, pointer⟩
  | parks ready =>
    exact ⟨Generator.off_iff_of_live off (by rw [ready]; nofun) nofun, nofun, budget, nofun, active, staged, pointer⟩
  | clears faulted =>
    exact ⟨Generator.off_iff_of_live off (by rw [faulted]; nofun) nofun, nofun, rfl, nofun, active, staged, pointer⟩
  | stages start len es short => exact ⟨off, bare, budget, cause, active, PhaseTable.written_legal _ _ _ short, pointer⟩
  | advances =>
    refine ⟨off, bare, budget, cause, Generator.tablesLegal_of active staged (fun e => ?_) fun i e => ?_⟩ <;>
      rcases advancePointer_cases (s.gen g).active.length (s.gen g).pointer with ⟨none, next⟩ | ⟨k, inside, next⟩
    · exact none
    · cases next.symm.trans e
    · cases next.symm.trans e
    · obtain rfl := Option.some.inj (next.symm.trans e)
      exact inside
  | completes =>
    have start : (s.gen g).completeLoad.pointer = if (s.gen g).staged.length = 0 then none else some 0 := rfl
    refine ⟨off, bare, budget, cause, Generator.tablesLegal_of staged staged (fun e => ?_) fun i e => ?_⟩ <;>
      rw [start] at e <;> split at e
    · next empty => exact empty
    · cases e
    · cases e
    · next ne =>
      cases e
      exact Nat.pos_of_ne_zero ne

/-- A configuration write takes each generator to the new configuration (R111, R120). -/
theorem Generator.reconfigured_lawful {x : Generator} {old : PartConfig} {g : GenId} (l : x.Lawful old g)
    (new : PartConfig) : (x.reconfigured old new g).Lawful new g := by
  obtain ⟨off, bare, budget, cause, tables⟩ := l
  unfold Generator.reconfigured
  split
  · next was =>
    split
    · next has => exact ⟨⟨nofun, fun e => by rw [has] at e; cases e⟩, nofun, rfl, nofun, tables⟩
    · next gone =>
      obtain ⟨reported, bus, none⟩ := bare was
      refine ⟨⟨fun _ => Bool.eq_false_iff.2 gone, fun _ => was⟩, bare, ?_, cause, tables⟩
      rw [budget, bus]; rfl
  next live =>
  split
  · next gone =>
    exact ⟨⟨fun _ => by simpa using gone, fun _ => rfl⟩, fun _ => ⟨rfl, rfl, rfl⟩, rfl, nofun, tables⟩
  next has =>
  have has : ¬ new.hasGen g = false := by simpa using has
  split
  · exact ⟨⟨nofun, fun e => absurd e has⟩, nofun, rfl, nofun, tables⟩
  · exact ⟨⟨fun e => absurd e live, fun e => absurd e has⟩, fun e => absurd e live, rfl, cause, tables⟩

/-- A generator after a joint's end differs in its service, its order and its idle timer. -/
theorem Generator.Lawful.of_service {x y : Generator} {c : PartConfig} {g : GenId} (l : x.Lawful c g)
    (e : y = { x with inService := y.inService, limitTimer := y.limitTimer, rotation := y.rotation,
                      idleTimer := y.idleTimer }) : y.Lawful c g := by
  obtain ⟨off, bare, budget, cause, tables⟩ := l
  rw [e]; exact ⟨off, bare, budget, cause, tables⟩

theorem Generator.Lawful.afterEnd {x : Generator} {c : PartConfig} {g : GenId} (l : x.Lawful c g) (h : HeadId)
    (m : RescueMode) (bound held : Bool) (delay : Nat) : (x.afterEnd h m bound held delay).Lawful c g := by
  refine l.of_service ?_
  unfold Generator.afterEnd
  dsimp only
  split <;> split <;> rfl

/-! ### The part -/

/-- The laws of tables, configuration and generators, read generator by generator. -/
structure State.SetUp (s : State) : Prop where
  gens : ∀ g, (s.gen g).Lawful s.mu.config g
  config : s.mu.config.Legal
  heads : ∀ h, (s.head h).cfg.Legal
  policy : ∀ k : FaultKind, k.fixedAbort = true → s.mu.policy[k.idx].severity = .abort
  clock : 2 ≤ s.slots.period ∧ s.slots.period ≤ 20 ∧ s.slots.timer ≤ s.slots.period
  few : s.slots.exclusions.length ≤ 16
  pairs : PairsLegal s.slots.exclusions

theorem setUp_iff : s.SetUp ↔ s.TablesLegal ∧ s.ConfigLegal ∧ s.GensLegal := by
  constructor
  · rintro ⟨gens, config, heads, policy, clock, few, pairs⟩
    exact ⟨⟨(gens .a).tables, (gens .b).tables, few, pairs⟩, ⟨config, heads, policy, clock⟩,
      fun g => ⟨(gens g).off, (gens g).bare, (gens g).budget, (gens g).cause⟩⟩
  · rintro ⟨⟨a, b, few, pairs⟩, ⟨config, heads, policy, clock⟩, gens⟩
    refine ⟨fun g => ?_, config, heads, policy, clock, few, pairs⟩
    obtain ⟨off, bare, budget, cause⟩ := gens g
    exact ⟨off, bare, budget, cause, by cases g; exacts [a, b]⟩

/-- Every move of a head keeps its configuration in range (R22, R23). -/
theorem HeadMove.cfg_legal {h : HeadId} {y : Head} (move : HeadMove s h y) (l : (s.head h).cfg.Legal) :
    y.cfg.Legal := by
  cases move with
  | configures w b free =>
    exact ⟨Nat.min_le_right .., Nat.min_le_right .., Nat.min_le_right .., Nat.min_le_right ..⟩
  | _ => exact l

theorem State.SetUp.congr (l : s.SetUp) (e : t.lawPart = s.lawPart) : t.SetUp := by
  obtain ⟨heads, gens, -, slots, config, policy⟩ := lawPart_eq_iff.1 e
  have gen : ∀ g, t.gen g = s.gen g := fun g => State.gen_of_gens gens g
  have cfg : ∀ h, (t.head h).cfg = (s.head h).cfg := fun h => congrArg (fun x => x.2.1) (heads h)
  constructor <;> simp only [gen, cfg, slots, config, policy]
  exacts [l.gens, l.config, l.heads, l.policy, l.clock, l.few, l.pairs]

theorem State.SetUp.modHead (l : s.SetUp) {h : HeadId} {f : Head → Head} (cfg : (f (s.head h)).cfg.Legal) :
    (s.modHead h f).SetUp :=
  { l with
    gens := fun g => by rw [State.gen_modHead]; exact l.gens g
    heads := fun k => by
      by_cases n : k = h
      · subst n; rw [State.head_modHead_same]; exact cfg
      · rw [State.head_modHead_other _ _ n]; exact l.heads k }

theorem State.SetUp.modGen (l : s.SetUp) {g : GenId} {f : Generator → Generator}
    (lawful : (f (s.gen g)).Lawful s.mu.config g) : (s.modGen g f).SetUp := by
  refine ⟨fun k => ?_, ?_, fun h => ?_, ?_, ?_, ?_, ?_⟩
  · rw [State.modGen_mu]
    by_cases n : k = g
    · subst n; rw [State.gen_modGen_same]; exact lawful
    · rw [State.gen_modGen_other _ _ n]; exact l.gens k
  · rw [State.modGen_mu]; exact l.config
  · rw [State.head_modGen]; exact l.heads h
  · rw [State.modGen_mu]; exact l.policy
  · rw [State.modGen_slots]; exact l.clock
  · rw [State.modGen_slots]; exact l.few
  · rw [State.modGen_slots]; exact l.pairs

/-- A generator's change of service, order and idle timer. -/
theorem State.SetUp.modService (l : s.SetUp) {g : GenId} {f : Generator → Generator}
    (e : ∀ x, f x = { x with inService := (f x).inService, limitTimer := (f x).limitTimer,
                             rotation := (f x).rotation, idleTimer := (f x).idleTimer }) : (s.modGen g f).SetUp :=
  l.modGen ((l.gens g).of_service (e _))

theorem State.SetUp.finish (l : s.SetUp) (o : JointOutcome) (f : Option (List Criterion)) (k : Option FaultKind)
    (h : HeadId) : (finishJoint o f k h s).SetUp := by
  obtain ⟨others, -, mu, slots, -⟩ := finishJoint_others s o f k h
  refine ⟨fun g => ?_, ?_, fun j => ?_, ?_, ?_, ?_, ?_⟩
  · rw [finishJoint_gen, mu]; exact (l.gens g).afterEnd ..
  · rw [mu]; exact l.config
  · by_cases n : j = h
    · subst n; rw [finishJoint_head_same]; exact l.heads j
    · rw [finishJoint_head_other _ _ _ _ n]; exact l.heads j
  · rw [mu]; exact l.policy
  · rw [slots]; exact l.clock
  · rw [slots]; exact l.few
  · rw [slots]; exact l.pairs

/-! ### Resets and the tick -/

/-- A generator after a soft reset (R75, R110). -/
theorem Generator.softReset_lawful {x : Generator} {c : PartConfig} {g : GenId} (tables : x.TablesLegal) :
    (x.softReset (c.hasGen g)).Lawful c g := by
  obtain ⟨active, staged, -⟩ := tables
  have last : (x.softReset (c.hasGen g)).pointer = if x.active.length = 0 then none else some (x.active.length - 1) :=
    rfl
  refine ⟨?_, fun _ => ⟨rfl, rfl, rfl⟩, rfl, fun e => ?_,
    Generator.tablesLegal_of active staged (fun e => ?_) fun i e => ?_⟩
  · cases e : c.hasGen g
    · exact ⟨fun _ => rfl, fun _ => rfl⟩
    · exact ⟨nofun, nofun⟩
  · cases has : c.hasGen g <;> rw [has] at e <;> cases e
  · rw [last] at e
    split at e
    · next empty => exact empty
    · cases e
  · rw [last] at e
    split at e
    · cases e
    · next ne =>
      cases e
      exact Nat.sub_lt (Nat.pos_of_ne_zero ne) Nat.one_pos

theorem softReset_setUp (l : s.SetUp) : (softReset s).SetUp := by
  obtain ⟨gens, config, heads, policy, ⟨low, high, -⟩, few, pairs⟩ := l
  refine ⟨fun g => ?_, config, fun h => ?_, policy, ⟨config.1, config.2.1, le_rfl⟩, few, pairs⟩
  · rw [softReset_gen]
    exact Generator.softReset_lawful (gens g).tables
  · rw [softReset_head]
    exact heads h

theorem PhaseTable.empty_legal : PhaseTable.empty.Legal :=
  ⟨Nat.zero_le _, fun i _ => by simp [PhaseTable.empty]⟩

theorem powerOn_setUp (straps : BitVec 6) (low : Bool) (s : State) : (powerOn straps low s).SetUp := by
  have clock : 2 ≤ State.reset.slots.period ∧ State.reset.slots.period ≤ 20
      ∧ State.reset.slots.timer ≤ State.reset.slots.period := by decide
  refine ⟨fun g => ?_, ?_, fun h => ?_, ?_, clock, Nat.zero_le _, .nil, nofun⟩
  · have off : PartConfig.powerOn.hasGen g = false := by cases g <;> rfl
    rw [powerOn_gen]
    exact ⟨⟨fun _ => off, fun _ => rfl⟩, fun _ => ⟨rfl, rfl, rfl⟩, rfl, nofun,
      PhaseTable.empty_legal, PhaseTable.empty_legal, rfl⟩
  · change PartConfig.powerOn.Legal
    simp [PartConfig.Legal, PartConfig.powerOn]
  · rw [powerOn_head]
    change HeadConfig.powerOn.Legal
    simp [HeadConfig.Legal, HeadConfig.powerOn]
  · change ∀ k : FaultKind, k.fixedAbort = true → policyPowerOn[k.idx].severity = .abort
    intro k fixed
    cases k
    case overtemp | interlockLost | coolantLost | suspendExpired => rfl
    all_goals cases fixed

theorem tick_setUp (l : s.SetUp) : (tick s).SetUp :=
  { l with
    gens := fun g => by
      obtain ⟨off, bare, budget, cause, tables⟩ := l.gens g
      rw [tick_gen]; exact ⟨off, bare, budget, cause, tables⟩
    heads := fun h => by rw [tick_head]; exact l.heads h
    clock := ⟨l.clock.1, l.clock.2.1, (Nat.sub_le ..).trans l.clock.2.2⟩ }

/-! ### Every run of moves -/

theorem State.SetUp.writeConfig (l : s.SetUp) {new : PartConfig} (legal : new.Legal) : (writeConfig new s).SetUp := by
  obtain ⟨heads, -, -, slots, config, policy⟩ := lawPart_eq_iff.1 (lawPart_writeConfig new s)
  have config : (Machine.writeConfig new s).mu.config = new := config.trans rfl
  have cfg : ∀ h, ((Machine.writeConfig new s).head h).cfg = (s.head h).cfg := fun h =>
    congrArg (fun x => x.2.1) (heads h)
  have slots : (Machine.writeConfig new s).slots = s.slots := slots.trans rfl
  have policy : (Machine.writeConfig new s).mu.policy = s.mu.policy := policy.trans rfl
  constructor <;> simp only [writeConfig_gen, config, cfg, slots, policy]
  exacts [fun g => Generator.reconfigured_lawful (l.gens g) new, legal, l.heads, l.policy, l.clock, l.few, l.pairs]

/-- Every run of moves keeps tables, configuration and generators legal. -/
theorem Moves.setUp (m : Moves s t) (l : s.SetUp) : t.SetUp := by
  induction m with
  | quiet e => exact l.congr e
  | trans _ _ first later => exact later (first l)
  | head move => exact l.modHead (move.cfg_legal (l.heads _))
  | gen move => exact l.modGen (move.lawful (l.gens _))
  | wait => exact l.modHead (l.heads _)
  | claim =>
    refine (l.modService fun _ => rfl).modHead ?_
    rw [State.head_modGen]; exact l.heads _
  | finish o f k h => exact l.finish o f k h
  | ready waking _ turns =>
    rw [startIdleIfUnheld_spec]
    refine (turns (l.modGen ?_)).modService fun x => by split <;> rfl
    obtain ⟨off, bare, budget, cause, tables⟩ := l.gens _
    exact ⟨Generator.off_iff_of_live off (by rw [waking]; nofun) nofun, nofun, budget, nofun, tables⟩
  | profile => exact { l with gens := l.gens }
  | config w a b order => exact l.writeConfig (clampConfig_legal w a b order)
  | policy es v read => exact { l with policy := policyOf_fixed read }
  | exclusions ps l' read few =>
    exact { l with few := few, pairs := distinctPairs_legal (pairs_ne read) }
  | slot s => exact { l with clock := ⟨l.config.1, l.config.2.1, le_rfl⟩ }
  | tick => exact tick_setUp l
  | softReset => exact softReset_setUp l
  | powerOn straps low => exact powerOn_setUp straps low _

/-- A START or RESUME HEAD that strays changes a head's context and an idle timer (log 24). -/
theorem Strays.setUp (m : Strays s t) (l : s.SetUp) : t.SetUp := by
  cases m with
  | starts h p serial g illegal idle =>
    have prepared := l.modHead (h := h)
      (f := fun x => x.prepared p (s.profile p).revision serial s.timebase) (l.heads h)
    exact ((dropRescue_moves h _).setUp prepared).modService fun _ => rfl
  | resumes h q k cont g => exact (l.modHead (l.heads h)).modService fun _ => rfl

theorem step_setUp (l : s.SetUp) (e : step s = .next t) : t.SetUp := by
  rcases step_moves e with moves | ⟨u, v, before, strays, after⟩
  · exact moves.setUp l
  · exact (strays.setUp (l.congr (lawPart_of_inner before))).congr (lawPart_of_inner after)

end Sys2Proof.Machine

namespace Sys2Proof.Proofs

open Sys2Proof.Machine

/-- Settles O59: a step is a run of moves, or a START or RESUME HEAD that strays, and each keeps the laws. -/
theorem stepKeepsTablesAndConfig : Obligations.StepKeepsTablesAndConfig := by
  unfold Obligations.StepKeepsTablesAndConfig
  intro s t tables config gens e
  exact setUp_iff.1 (step_setUp (setUp_iff.2 ⟨tables, config, gens⟩) e)

end Sys2Proof.Proofs
end

section
/-! PROOFS. The head commands that only read or set a head's state: READ HEAD, READ FAULTS, CLEAR HEAD, DISABLE HEAD,
ENABLE HEAD and WRITE HEAD CONFIG (R23, R45-R48, R154). -/

namespace Sys2Proof.Machine

variable {s t : State} {r : ReqHead}

/-! ### Rows that accept with an effect -/

/-- An operator row whose body accepts with an effect is answered with its data, and the effect stands; ENG_EN is
answered at the request's level, whatever level the effect is read at. -/
theorem operatorRow_does (takes : s.Takes r) {code : Byte} {args data : List Byte} {body : State → Answer}
    (e : body { s with engEn := r.engEn } = accept data { t with engEn := r.engEn }) :
    operatorRow r code args body s = .next (t.answered r code .ok data) := by
  rw [operatorRow_of_takes takes, e]; rfl

/-- The same of an engineer row. -/
theorem engineerRow_does (takes : s.TakesEngineer r) {code : Byte} {args data : List Byte} {body : State → Answer}
    (e : body { s with engEn := r.engEn } = accept data { t with engEn := r.engEn }) :
    engineerRow r code args body s = .next (t.answered r code .ok data) := by
  rw [engineerRow_of_takes takes, e]; rfl

/-- An engineer row whose body changes head `h` is answered with its data, the head changed. -/
theorem engineerRow_writesHead (takes : s.TakesEngineer r) {code : Byte} {args data : List Byte}
    {body : State → Answer} {h : HeadId} {f g : Head → Head}
    (e : body { s with engEn := r.engEn } = accept data (State.modHead { s with engEn := r.engEn } h f))
    (same : f (s.head h) = g (s.head h)) :
    engineerRow r code args body s = .next ((s.modHead h g).answered r code .ok data) := by
  rw [← State.modHead_congr s h same]
  exact engineerRow_does takes e

/-- An engineer row without that authority answers DENIED. -/
theorem engineerRow_answersDenied (takes : s.Takes r) (operator : ¬ IsEngineer r) {code : Byte} {args : List Byte}
    {body : State → Answer} : engineerRow r code args body s = .next (s.answered r code .denied []) :=
  (engineerRow_denied takes operator ..).trans (congrArg Host.Outcome.next (sendReply_refuse ..))

/-- A START of a head that is not IDLE is refused BAD_STATE (R25 check 3). -/
theorem doStart_of_not_idle {u : State} {h : HeadId} (warm : u.mu.cold = false)
    (away : (u.head h).ctx.state ≠ .idle) (pr : Byte) (serial : Word32) :
    doStart (byte h.val) pr serial u = refuse .badState u := by
  rw [doStart, if_neg (by rw [warm]; decide), withHead_byte]
  exact if_pos away

/-! ### Configuration writes (R23) -/

/-- A write of the head's configuration, as the inputs see it: they fall to UNSATISFIED where a polarity differs
(R137). -/
theorem configured_written (x : Head) (w : HeadConfigArg) (b : Option GenId) :
    x.configured (x.cfg.written w b) =
      { x with
          cfg := x.cfg.written w b,
          inputs := if x.cfg.polPart = w.polPart ∧ x.cfg.polClamp = w.polClamp ∧ x.cfg.polCoil = w.polCoil then x.inputs
            else { part := ⟨x.inputs.part.raw, false, false⟩, clamp := ⟨x.inputs.clamp.raw, false, false⟩,
                   coil := ⟨x.inputs.coil.raw, false, false⟩ } } := by
  have differs : x.cfg.polarityDiffers (x.cfg.written w b) = true ↔
      ¬ (x.cfg.polPart = w.polPart ∧ x.cfg.polClamp = w.polClamp ∧ x.cfg.polCoil = w.polCoil) := by
    simp only [HeadConfig.polarityDiffers, HeadConfig.written, Bool.or_eq_true, bne_iff_ne]
    tauto
  rw [Head.configured]
  by_cases same : x.cfg.polPart = w.polPart ∧ x.cfg.polClamp = w.polClamp ∧ x.cfg.polCoil = w.polCoil
  · rw [if_pos same, if_neg fun d => differs.1 d same]
  · rw [if_neg same, if_pos (differs.2 same)]; rfl

theorem bindingOf_none {b : Byte} (out : 3 ≤ b.toNat) : bindingOf b = none := by
  rw [bindingOf, if_neg, if_neg, if_neg] <;> rintro rfl <;> simp at out

end Sys2Proof.Machine

namespace Sys2Proof.Proofs

open Sys2Proof.Machine

/-- Settles O25: the branches of CLEAR HEAD in the order of R45. -/
theorem clearHeadMakesFaultedHeadIdle : Obligations.ClearHeadMakesFaultedHeadIdle := by
  intro s r takes
  have body : ∀ h : HeadId, doClearHead (byte h.val) { s with engEn := r.engEn } = _ := fun h => withHead_byte ..
  refine ⟨fun b out => operatorRow_refuses takes (withHead_none out ..), fun h away => ?_, fun h faulted status => ?_,
    fun h faulted empty => ?_⟩
  · exact operatorRow_refuses takes ((body h).trans (if_pos away))
  all_goals have passed := (body h).trans (if_neg (not_not.2 faulted))
  · exact operatorRow_refuses takes (passed.trans (if_pos status))
  · exact operatorRow_does takes (passed.trans (if_neg (not_not.2 empty)))

/-- Settles O26: the branches of DISABLE HEAD in the order of R46; START then fails its check of the state (R25). -/
theorem disableHeadDisablesIdleHead : Obligations.DisableHeadDisablesIdleHead := by
  intro s r takes
  have body : ∀ h : HeadId, doDisableHead (byte h.val) { s with engEn := r.engEn } = _ := fun h => withHead_byte ..
  refine ⟨fun b operator => engineerRow_answersDenied takes operator, fun engineer b out => ?_,
    fun engineer h away => ?_, fun engineer h idle => ?_, fun h pr serial warm disabled => ?_⟩
  · exact engineerRow_refuses ⟨takes, engineer⟩ (withHead_none out ..)
  · exact engineerRow_refuses ⟨takes, engineer⟩ ((body h).trans (if_pos away))
  · exact engineerRow_does ⟨takes, engineer⟩ ((body h).trans (if_neg (not_not.2 idle)))
  · exact operatorRow_refuses takes (doStart_of_not_idle (u := { s with engEn := r.engEn }) warm
      (fun idle => nomatch disabled.symm.trans idle) pr serial)

/-- Settles O27: the branches of ENABLE HEAD in the order of R47. -/
theorem enableHeadMakesDisabledHeadIdle : Obligations.EnableHeadMakesDisabledHeadIdle := by
  intro s r takes
  have body : ∀ h : HeadId, doEnableHead (byte h.val) { s with engEn := r.engEn } = _ := fun h => withHead_byte ..
  refine ⟨fun b operator => engineerRow_answersDenied takes operator, fun engineer b out => ?_,
    fun engineer h away => ?_, fun engineer h disabled => ?_⟩
  · exact engineerRow_refuses ⟨takes, engineer⟩ (withHead_none out ..)
  · exact engineerRow_refuses ⟨takes, engineer⟩ ((body h).trans (if_pos away))
  · exact engineerRow_does ⟨takes, engineer⟩ ((body h).trans (if_neg (not_not.2 disabled)))

/-- Settles O18: both reads answer from the head they find, and a byte that names none is refused. -/
theorem headReadsKeepState : Obligations.HeadReadsKeepState := by
  intro s r takes
  refine ⟨fun h => ⟨operatorRow_accepts takes ((withHead_byte h ..).trans ?_),
    operatorRow_accepts takes ((withHead_byte h ..).trans ?_)⟩, fun b out =>
    ⟨operatorRow_refuses takes (withHead_none out ..), operatorRow_refuses takes (withHead_none out ..)⟩⟩
  · rfl
  · rfl

/-- Settles O29: the branches of WRITE HEAD CONFIG in the order of R23, the accepted record by `configured_written`. -/
theorem writeHeadConfigStoresFields : Obligations.WriteHeadConfigStoresFields := by
  intro s r w takes
  refine ⟨fun out => engineerRow_refuses takes ?_, fun h b named bound => ?_⟩
  · by_cases noHead : 16 ≤ w.head.toNat
    · exact withHead_none noHead ..
    · have none := bindingOf_none (out.resolve_left noHead)
      unfold doWriteHeadConfig withHead
      split
      · dsimp only; rw [none]
      · rfl
  · have body : doWriteHeadConfig w { s with engEn := r.engEn } =
        if s.holds h then refuse .inUse { s with engEn := r.engEn }
        else accept ((s.head h).cfg.written w b).bytes
          (State.modHead { s with engEn := r.engEn } h fun x => x.configured ((s.head h).cfg.written w b)) := by
      unfold doWriteHeadConfig
      rw [named, withHead_byte, bound, bindingOf_bindingCode]
      rfl
    refine ⟨fun held => engineerRow_refuses takes (body.trans (if_pos held)), fun free => ?_⟩
    exact engineerRow_writesHead takes (body.trans (if_neg (Bool.eq_false_iff.1 free))) (configured_written ..)

end Sys2Proof.Proofs
end

section
/-! PROOFS. START's refusals, ABORT and SUSPEND HEAD (R25, R35, R37-R40, R161). -/

namespace Sys2Proof.Machine

variable {s t u : State} {r : ReqHead} {h : HeadId}

/-! ### The level of ENG_EN plays no part in a head's event -/

/-- An operator row's effect, with ENG_EN at the level before the request. -/
theorem operatorRow_acts (takes : s.Takes r) {code : Byte} {args data : List Byte} {body : State → Answer}
    (e : body { s with engEn := r.engEn } = accept data t) (eng : t.engEn = r.engEn) :
    operatorRow r code args body s = .next (({ t with engEn := s.engEn } : State).answered r code .ok data) :=
  operatorRow_does takes (e.trans (by rw [← eng]))

theorem JointEnded.of_eng {a b : Bool} {o : JointOutcome} {f : Option (List Criterion)} {k : Option FaultKind}
    {rp : RingPort} (e : JointEnded h o f k rp { s with engEn := a } t) :
    JointEnded h o f k rp s { t with engEn := b } :=
  ⟨e.results, e.ctx, e.hcu, e.request, e.gens, e.ring, e.kept⟩

theorem HeadSuspended.of_eng {a b : Bool} {cause : SuspendCause} (e : HeadSuspended h cause { s with engEn := a } t) :
    HeadSuspended h cause s { t with engEn := b } :=
  ⟨e.state, e.record, e.timers, e.hcu, e.rescue, e.joint, e.results, e.gens, e.kept⟩

theorem OthersKept.of_eng {a : Bool} (e : OthersKept h { s with engEn := a } t) :
    OthersKept h s { t with engEn := s.engEn } :=
  have ⟨timebase, held, _, pending⟩ := e.clock
  ⟨e.heads, e.profiles, e.mu, e.slots, e.interlocks, timebase, held, rfl, pending⟩

/-! ### Suspension (R39, R40) -/

/-- A suspension of a head with a joint, as the statements say it (R39, R40). -/
theorem suspend_headSuspended (live : (s.head h).ctx.state = .running ∨ (s.head h).ctx.state = .waitGen)
    (cause : SuspendCause) : HeadSuspended h cause s (suspend cause h s) := by
  have same := suspend_head_same s cause h
  obtain ⟨gens, -, -, -, -, -, results, -⟩ := suspend_frame s cause h
  have elapsed : s.elapsed h = if (s.head h).ctx.state = .running then (s.timebase - (s.head h).ctx.segStart).toNat
      else (s.head h).ctx.entryOffset := by
    rcases live with st | st <;> simp only [State.elapsed, st] <;> rfl
  refine ⟨by rw [same], ?_, by rw [same]; exact ⟨rfl, rfl, rfl⟩, by rw [same],
    ⟨by rw [same], dropRescue_not_inRescue _ h⟩, by rw [same], results, gens, by rw [same]; exact ⟨rfl, rfl, rfl⟩⟩
  rw [same, ← elapsed]; rfl

theorem suspend_others (s : State) (cause : SuspendCause) (h : HeadId) : OthersKept h s (suspend cause h s) := by
  obtain ⟨-, -, mu, profiles, slots, interlocks, -, timebase, held, eng, pending⟩ := suspend_frame s cause h
  exact ⟨fun _ n => suspend_head_other s cause n, profiles, mu, slots, interlocks, timebase, held, eng, pending⟩

/-! ### START's checks (R25) -/

/-- The profile a START may name: VALID, on a head bound to a generator that is not OFF (R25 check 4). -/
theorem startProfile_eq_some {g : GenId} {p : ProfileId} (valid : (s.profile p).recipe ≠ none)
    (bound : (s.head h).cfg.binding = some g) (live : (s.gen g).state ≠ .off) :
    s.startProfile h (byte p.val) = some p := by
  simp only [State.startProfile, profileOf_byte, bound]
  exact if_pos ⟨Option.isSome_iff_ne_none.2 valid, live⟩

theorem startProfile_eq_none {pr : Byte}
    (bad : 32 ≤ pr.toNat ∨ (∃ p : ProfileId, pr = byte p.val ∧ (s.profile p).recipe = none)
      ∨ (s.head h).cfg.binding = none ∨ ∃ g, (s.head h).cfg.binding = some g ∧ (s.gen g).state = .off) :
    s.startProfile h pr = none := by
  unfold State.startProfile
  split
  · next p g named bound =>
    refine if_neg fun ok => ?_
    rcases bad with out | ⟨q, rfl, empty⟩ | unbound | ⟨k, bound', off⟩
    · rw [profileOf_none out] at named; cases named
    · rw [profileOf_byte] at named
      cases named
      rw [empty] at ok; cases ok.1
    · rw [unbound] at bound; cases bound
    · obtain rfl := Option.some.inj (bound'.symm.trans bound)
      exact ok.2 off
  · rfl

theorem interlocksOk_eq_false (e : s.verdict h = false ∨ s.latched h = true) : s.interlocksOk h = false := by
  rcases e with e | e <;> simp [State.interlocksOk, e]

theorem interlocksOk_eq_true (verdict : s.verdict h = true) (clear : s.latched h = false) :
    s.interlocksOk h = true := by simp [State.interlocksOk, verdict, clear]

/-- START of an IDLE head in a warm part, its profile check read. -/
theorem doStart_of_idle (warm : u.mu.cold = false) (idle : (u.head h).ctx.state = .idle) (pr : Byte)
    (serial : Word32) : doStart (byte h.val) pr serial u = match u.startProfile h pr with
      | none => refuse .badArgument u
      | some p =>
        if !u.interlocksOk h then refuse .interlock u
        else if 48 ≤ u.results.length + u.reservations then refuse .full u
        else accept [((startJoint h p serial u).head h).ctx.state.code] (startJoint h p serial u) := by
  exact ((if_neg (by rw [warm]; decide)).trans (withHead_byte ..)).trans (if_neg (not_not.2 idle))

end Sys2Proof.Machine

namespace Sys2Proof.Proofs

open Sys2Proof.Machine

/-- Settles O20: the branches of START in the order of R25. -/
theorem startRefusedByFirstFailedCheck : Obligations.StartRefusedByFirstFailedCheck := by
  intro s r serial takes
  let u : State := { s with engEn := r.engEn }
  refine ⟨fun hd pr cold => ?_, fun hd pr warm out => ?_, fun h pr warm away => ?_, fun h pr warm idle bad => ?_,
    fun h p g warm idle valid bound live => ?_⟩
  · exact operatorRow_refuses takes (if_pos cold)
  · refine operatorRow_refuses takes ((if_neg ?_).trans (withHead_none out ..))
    exact Bool.eq_false_iff.1 warm
  · exact operatorRow_refuses takes (doStart_of_not_idle (u := u) warm away pr serial)
  · refine operatorRow_refuses takes ((doStart_of_idle (u := u) warm idle pr serial).trans ?_)
    rw [startProfile_eq_none (s := u) bad]
  · have named : u.startProfile h (byte p.val) = some p := startProfile_eq_some valid bound live
    have body := doStart_of_idle (u := u) warm idle (byte p.val) serial
    rw [named] at body
    refine ⟨fun interlock => ?_, fun verdict clear full => ?_⟩
    · refine operatorRow_refuses takes (body.trans (if_pos ?_))
      rw [interlocksOk_eq_false (s := u) interlock]; rfl
    · refine operatorRow_refuses takes ((body.trans (if_neg ?_)).trans (if_pos full))
      rw [interlocksOk_eq_true (s := u) verdict clear]; decide

/-- Settles O22: ABORT of a head with a joint is the joint's end, said once for every end. -/
theorem abortEndsJoint : Obligations.AbortEndsJoint := by
  intro s r takes
  let u : State := { s with engEn := r.engEn }
  have body : ∀ h : HeadId, doAbort (byte h.val) u = _ := fun h => withHead_byte ..
  refine ⟨fun h held => ?_, fun h free => ?_, fun b out => operatorRow_refuses takes (withHead_none out ..)⟩
  · have others := finishJoint_others u .aborted none none h
    refine ⟨_, operatorRow_acts takes ((body h).trans (if_pos held)) others.clock.2.2.1,
      (finishJoint_ended u .aborted none none h).of_eng, others.of_eng, ?_⟩
    change ((finishJoint .aborted none none h u).head h).fr = _
    rw [finishJoint_head_same]; rfl
  · exact operatorRow_refuses takes ((body h).trans (if_neg (Bool.eq_false_iff.1 free)))

/-- Settles O23: SUSPEND HEAD of a RUNNING or WAIT_GEN head is the suspension with cause MANUAL. -/
theorem suspendHeadSuspends : Obligations.SuspendHeadSuspends := by
  intro s r takes
  let u : State := { s with engEn := r.engEn }
  have body : ∀ h : HeadId, doSuspendHead (byte h.val) u = _ := fun h => withHead_byte ..
  refine ⟨fun h live => ?_, fun h notRunning notWaiting => ?_,
    fun b out => operatorRow_refuses takes (withHead_none out ..)⟩
  · have others := suspend_others u .manual h
    have own := suspend_head_same u .manual h
    refine ⟨_, operatorRow_acts takes ((body h).trans (if_pos live)) others.clock.2.2.1,
      (suspend_headSuspended (s := u) live .manual).of_eng, others.of_eng, ?_, ?_, (suspend_frame u .manual h).2.1⟩
    · exact (congrArg Head.fr own).trans rfl
    · exact (congrArg (fun x => x.ctx.suspendedOnce) own).trans rfl
  · exact operatorRow_refuses takes ((body h).trans (if_neg (not_or.2 ⟨notRunning, notWaiting⟩)))

end Sys2Proof.Proofs
end

section
/-! PROOFS. The begin of a joint, by START and by RESUME HEAD: it waits, wakes the generator, runs its segment, or
faults at once (R25-R29, R41-R43, R65, R112, R116). -/

namespace Sys2Proof.Machine

variable {s t u : State} {r : ReqHead} {h : HeadId}

theorem FaultActs.of_eng {a : Bool} {k : FaultKind} (e : FaultActs h k { s with engEn := a } t) :
    FaultActs h k s { t with engEn := s.engEn } := by
  obtain ⟨⟨status, pointer, capture⟩, others, suspends, ends⟩ := e
  refine ⟨⟨status, pointer, capture⟩, others.of_eng, fun act => ?_, fun act => (ends act).of_eng⟩
  obtain ⟨suspended, once, ring⟩ := suspends act
  exact ⟨suspended.of_eng, once, ring⟩

/-! ### Entry into a segment by a head in no rescue service -/

/-- A head outside rescue service leaves no place (R103). -/
theorem State.leaving_of_out (out : s.inRescue h = false) (x : Head) : s.leaving h x = s.modHead h fun _ => x := by
  obtain ⟨a, b⟩ := Bool.or_eq_false_iff.1 out
  rw [State.leaving, Generator.afterEnd_of_ne (beq_eq_false_iff_ne.1 a), Generator.afterEnd_of_ne
    (beq_eq_false_iff_ne.1 b)]
  rfl

/-- The entry into a SOAK, or into any segment outside rescue service, with the interlocks satisfied (R29, R135). -/
theorem enterSegment_runs {seg : Segment} (e : s.segment h = some seg) (stays : seg.isSoak = true ∨ s.inRescue h = false)
    (verdict : s.verdict h = true) (clear : s.latched h = false) :
    enterSegment h s = s.modHead h fun _ => (s.head h).entered seg s.timebase (3 * s.slots.period) := by
  let x := (s.head h).entered seg s.timebase (3 * s.slots.period)
  have entered : (if seg.isSoak then s.modHead h fun _ => x else s.leaving h x) = s.modHead h fun _ => x := by
    rcases stays with soak | out
    · rw [if_pos soak]
    · rw [State.leaving_of_out out, ite_self]
  have inputs : x.inputs = (s.head h).inputs := by cases seg <;> rfl
  have own : (s.modHead h fun _ => x).verdict h = true := by
    rw [State.verdict, State.head_modHead_same, inputs]; exact verdict
  rw [enterSegment_entered s e]
  dsimp only
  rw [entered, entryTest_passes _ own clear, ite_self]

/-! ### The begin of a joint (R27) -/

section
variable {y : Head} {g : GenId}

theorem enterJoint_waking (bound : y.cfg.binding = some g) (waking : (s.gen g).state = .waking) :
    enterJoint h (s.modHead h fun _ => y) = s.modHead h fun _ => y.waiting := by
  simp only [enterJoint, State.head_modHead_same, bound, State.gen_modHead, waking, State.modCtx, State.modHead_modHead]
  rfl

/-- A STANDBY generator is woken, with the notice of R124 (R112; log 16). -/
theorem enterJoint_standby (bound : y.cfg.binding = some g) (standby : (s.gen g).state = .standby) :
    enterJoint h (s.modHead h fun _ => y) =
      { (s.modHead h fun _ => y.waiting).modGen g (fun x =>
          { x with state := .waking, wakeTimer := some s.mu.config.wakeTimeout }) with
        rp := s.offered s.rp ([2, genCode g, 1, 2, 0] ++ optBytes le16 (s.gen g).bus ++ [s.slots.number]) } := by
  simp only [enterJoint, State.head_modHead_same, bound, State.gen_modHead, standby, State.modCtx, State.modHead_modHead]
  rw [wakeGenerator, State.noticeGenState, State.notice_eq, State.gen_modGen_same, State.gen_modHead]
  cases g <;> rfl

theorem enterJoint_faulted (bound : y.cfg.binding = some g) (faulted : (s.gen g).state = .faulted) :
    enterJoint h (s.modHead h fun _ => y) = takeFault h .generatorFault (s.modHead h fun _ => y.waiting) := by
  simp only [enterJoint, State.head_modHead_same, bound, State.gen_modHead, faulted, State.modCtx, State.modHead_modHead]
  rfl

/-- A READY generator runs the segment at once, its idle timer stopped (R27, R29, R116). -/
theorem enterJoint_ready {seg : Segment} (bound : y.cfg.binding = some g) (ready : (s.gen g).state = .ready)
    (segment : s.segmentOf y = some seg) (stays : seg.isSoak = true ∨ s.inRescue h = false)
    (inputs : y.inputs = (s.head h).inputs) (verdict : s.verdict h = true) (clear : s.latched h = false) :
    enterJoint h (s.modHead h fun _ => y) =
      (s.modGen g fun x => { x with idleTimer := none }).modHead h fun _ =>
        y.entered seg s.timebase (3 * s.slots.period) := by
  let v := (s.modHead h fun _ => y).modGen g Generator.unidle
  have own : v.head h = y := by simp only [v, State.head_modGen, State.head_modHead_same]
  have enters : enterJoint h (s.modHead h fun _ => y) = enterSegment h v := by
    simp only [enterJoint, State.head_modHead_same, bound, State.gen_modHead, ready]
    rfl
  have segment_v : v.segment h = some seg := by
    rw [segment_eq_segmentOf, own, ← segment]
    simp only [v, State.segmentOf, State.profile_modGen]
    rfl
  have service : v.inRescue h = s.inRescue h := by cases g <;> rfl
  have verdict_v : v.verdict h = true := by rw [State.verdict, own, inputs]; exact verdict
  have clear_v : v.latched h = false := by cases g <;> exact clear
  rw [enters, enterSegment_runs segment_v (by rw [service]; exact stays) verdict_v clear_v, own]
  cases g <;> simp [v, State.modGen, State.modHead, Generator.unidle]

end

/-! ### START (R26) -/

/-- A START's set-up: the head prepared, its rescue request gone (R26). -/
theorem startJoint_eq (out : s.inRescue h = false) (p : ProfileId) (serial : Word32) :
    startJoint h p serial s = enterJoint h (s.modHead h fun _ =>
      { (s.head h).prepared p (s.profile p).revision serial s.timebase with rescueReq := false }) := by
  rw [startJoint, dropRescue_eq_leaving, State.head_modHead_same, State.leaving_of_out (by exact out),
    State.modHead_modHead]

/-- The entry into a first segment of a head prepared for it (R29, R65). -/
theorem prepared_entered (x : Head) (p : ProfileId) (revision : Word16) (serial now : Word32) (seg : Segment)
    (three : Nat) :
    let y := { x.prepared p revision serial now with rescueReq := false }
    y.entered seg now three =
      { y with
          ctx := { y.ctx with state := .running, segStart := now, segTimer := some (max 1 seg.length),
                              sampleTimer := some three },
          hcu := { y.hcu with setpoint := match seg with
            | .soak t _ _ => t
            | _ => 0 } } := by
  cases seg <;> simp [Head.entered, Head.prepared]

end Sys2Proof.Machine

namespace Sys2Proof.Proofs

open Sys2Proof.Machine

/-- Settles O21: the head prepared, then the begin of a joint by the generator's state. -/
theorem startEntersJoint : Obligations.StartEntersJoint := by
  intro s r h p serial g q seg rest takes warm idle recipe segments bound verdict clear room out x prepared waiting
  let u : State := { s with engEn := r.engEn }
  have starts : startJoint h p serial u = enterJoint h (u.modHead h fun _ => prepared) :=
    startJoint_eq (s := u) out p serial
  have body : (s.gen g).state ≠ .off → ∀ t y, enterJoint h (u.modHead h fun _ => prepared) = t → t.head h = y →
      doStart (byte h.val) (byte p.val) serial u = accept [y.ctx.state.code] t := by
    rintro live t y rfl rfl
    have named : u.startProfile h (byte p.val) = some p :=
      startProfile_eq_some (s := s) (by rw [recipe]; nofun) bound live
    rw [doStart_of_idle (u := u) warm idle, named, ← starts]
    dsimp only
    rw [interlocksOk_eq_true (s := u) verdict clear]
    exact if_neg (Nat.not_le.2 room)
  have own : (u.modHead h fun _ => prepared.waiting).head h = prepared.waiting := State.head_modHead_same ..
  refine ⟨fun waking => ?_, fun standby => ?_, fun ready => ?_, fun faulted => ?_⟩
  · exact operatorRow_does takes
      (body (by rw [waking]; nofun) _ _ (enterJoint_waking (s := u) bound waking) own)
  · refine operatorRow_does takes ((body (by rw [standby]; nofun) _ _ (enterJoint_standby (s := u) bound standby)
      ((State.head_modGen ..).trans own)).trans (congrArg (accept _) ?_))
    cases g <;> rfl
  · have segment : u.segmentOf prepared = some seg := by
      change ((s.profile p).recipe.bind fun r => r.segments[0]?) = some seg
      rw [recipe, Option.bind_some, segments]; rfl
    have runs := enterJoint_ready (s := u) (y := prepared) bound ready segment (.inr out) rfl verdict clear
    have first := prepared_entered x p (s.profile p).revision serial s.timebase seg (3 * s.slots.period)
    refine operatorRow_does takes ((body (by rw [ready]; nofun) _ _ (runs.trans (congrArg (fun y =>
      (u.modGen g fun x => { x with idleTimer := none }).modHead h fun _ => y) first))
      (State.head_modHead_same ..)).trans (congrArg (accept _) ?_))
    cases g <;> rfl
  · have acts : FaultActs h .generatorFault (u.modHead h fun _ => prepared.waiting) _ :=
      takeFault_acts (.inr (by rw [own]; rfl)) .generatorFault
    exact ⟨_, operatorRow_acts takes (body (by rw [faulted]; nofun) _ _ (enterJoint_faulted (s := u) bound faulted) rfl)
      acts.others.clock.2.2.1, FaultActs.of_eng (s := waiting) acts⟩

end Sys2Proof.Proofs
end

section
/-! PROOFS. RESUME HEAD: its checks, and the begin of its joint again (R42, R43). -/

namespace Sys2Proof.Machine

variable {s t u : State} {r : ReqHead} {h : HeadId}

/-! ### RESUME HEAD's checks (R42) -/

theorem resumeSegmentOk_iff {q : SuspendRecord} {k : Nat} {cont : Bool} :
    resumeSegmentOk q k cont = true ↔ ¬ (q.segIndex < k ∨ (cont = true ∧ k ≠ q.segIndex)) := by
  cases cont <;> simp [resumeSegmentOk]

theorem resumeBlocked_iff {q : SuspendRecord} {st : List FaultKind} :
    resumeBlocked q st = true ↔ FaultKind.coolantLost ∈ st ∨ ∃ j ∈ st, q.cause = .fault j := by
  unfold resumeBlocked
  cases e : q.cause <;> simp

/-- RESUME HEAD of a SUSPENDED head, its record read. -/
theorem doResumeHead_of_suspended {q : SuspendRecord} (suspended : (u.head h).ctx.state = .suspended)
    (record : (u.head h).ctx.suspendRec = some q) (k : Byte) (cont : Bool) :
    doResumeHead (byte h.val) k cont u =
      if !resumeSegmentOk q k.toNat cont then refuse .badArgument u
      else if resumeBlocked q (u.head h).fr.status then refuse .badState u
      else if !u.interlocksOk h then refuse .interlock u
      else accept [((resumeJoint h q k.toNat cont u).head h).ctx.state.code] (resumeJoint h q k.toNat cont u) := by
  rw [doResumeHead, withHead_byte, if_neg (not_not.2 suspended), record]

/-- The set-up of a resume from an allowed segment: the segment the command names is the head's (R43). -/
theorem resumedFrom_eq {x : Head} {q : SuspendRecord} {k : Nat} {cont : Bool}
    (right : ¬ (q.segIndex < k ∨ (cont = true ∧ k ≠ q.segIndex))) :
    x.resumedFrom q k cont =
      { x with
          ctx := { x.ctx with
            segIndex := k, entryOffset := if cont then q.elapsed else 0,
            rampOrigin := if cont then q.rampOrigin else x.ctx.rampOrigin,
            segsDone := k, windowTimer := none, resumed := true, served := false,
            couplingLow := 0, contEntry := cont },
          hcu := { x.hcu with
            integrator := if cont then q.integrator else 0, demand := 0, seqRef := none } } := by
  cases cont with
  | false => rfl
  | true =>
    have named : k = q.segIndex := not_not.1 fun n => right (.inr ⟨rfl, n⟩)
    subst named; rfl

end Sys2Proof.Machine

namespace Sys2Proof.Proofs

open Sys2Proof.Machine

/-- Settles O24: the checks of R42 in order, then the begin of a joint by the generator's state. -/
theorem resumeHeadResumes : Obligations.ResumeHeadResumes := by
  intro s r cont takes
  let u : State := { s with engEn := r.engEn }
  refine ⟨fun hd k out => operatorRow_refuses takes (withHead_none out ..), fun h k away => ?_, ?_⟩
  · exact operatorRow_refuses takes ((withHead_byte h ..).trans (if_pos away))
  intro h k q suspended record x blocked wrong resumed
  have body := doResumeHead_of_suspended (u := u) suspended record k cont
  refine ⟨fun bad => ?_, fun right stopped => ?_, fun right free interlock => ?_,
    fun g right free verdict clear bound => ?_⟩
  · refine operatorRow_refuses takes (body.trans (if_pos ?_))
    rw [Bool.eq_false_iff.2 fun ok => resumeSegmentOk_iff.1 ok bad]; rfl
  all_goals have allowed := body.trans (if_neg (by rw [resumeSegmentOk_iff.2 right]; decide))
  · exact operatorRow_refuses takes (allowed.trans (if_pos (resumeBlocked_iff.2 stopped)))
  all_goals have open' := allowed.trans (if_neg fun stopped => free (resumeBlocked_iff.1 stopped))
  · refine operatorRow_refuses takes (open'.trans (if_pos ?_))
    rw [interlocksOk_eq_false (s := u) interlock]; rfl
  intro waiting
  have resumes : resumeJoint h q k.toNat cont u = enterJoint h (u.modHead h fun _ => resumed) :=
    congrArg (enterJoint h) (State.modHead_congr u h (resumedFrom_eq right))
  have body : ∀ t y, enterJoint h (u.modHead h fun _ => resumed) = t → t.head h = y →
      doResumeHead (byte h.val) k cont u = accept [y.ctx.state.code] t := by
    rintro t y rfl rfl
    rw [← resumes]
    exact open'.trans (if_neg (by rw [interlocksOk_eq_true (s := u) verdict clear]; decide))
  have own : (u.modHead h fun _ => resumed.waiting).head h = resumed.waiting := State.head_modHead_same ..
  refine ⟨fun waking => ?_, fun standby => ?_, fun faulted => ?_,
    fun p rc seg ready profile recipe at_index stays => ?_⟩
  · exact operatorRow_does takes (body _ _ (enterJoint_waking (s := u) bound waking) own)
  · refine operatorRow_does takes ((body _ _ (enterJoint_standby (s := u) bound standby)
      ((State.head_modGen ..).trans own)).trans (congrArg (accept _) ?_))
    cases g <;> rfl
  · have acts : FaultActs h .generatorFault (u.modHead h fun _ => resumed.waiting) _ :=
      takeFault_acts (.inr (by rw [own]; rfl)) .generatorFault
    exact ⟨_, operatorRow_acts takes (body _ _ (enterJoint_faulted (s := u) bound faulted) rfl)
      acts.others.clock.2.2.1, FaultActs.of_eng (s := waiting) acts⟩
  · intro entered
    have segment : u.segmentOf resumed = some seg := by
      change ((x.ctx.profile.bind fun p => (s.profile p).recipe).bind fun r => r.segments[k.toNat]?) = some seg
      rw [profile, Option.bind_some, recipe, Option.bind_some, at_index]
    have runs := enterJoint_ready (s := u) (y := resumed) bound ready segment stays rfl verdict clear
    have running : entered.ctx.state = .running := by cases seg <;> rfl
    refine operatorRow_does takes ((body _ _ runs (State.head_modHead_same ..)).trans ?_)
    change accept [entered.ctx.state.code] _ = _
    rw [running]
    refine congrArg (accept _) ?_
    cases g <;> rfl

end Sys2Proof.Proofs
end

section
/-! PROOFS. The soft reset at the end of the marked reply (R187, R201), and the timer expiries that raise faults (R31,
R33, R44, R107). -/

namespace Sys2Proof.Machine

variable {s t u : State} {h : HeadId}

/-! ### A fault of fixed severity, in SUSPENDED too (R140, R145) -/

/-- A fault of fixed severity, but for COOLANT_LOST, ends the joint of any head that holds one (R140, R145). -/
theorem takeFault_acts_of_fixed (held : s.holds h = true) {k : FaultKind} (fixed : k.fixedAbort = true)
    (dry : k ≠ .coolantLost) : s.actionOn h k = .abort ∧ FaultActs h k s (takeFault h k s) := by
  have abort : s.actionOn h k = .abort := by rw [State.actionOn, fixed]; rfl
  have action : s.faultAction h k = .abort := by
    simp [State.faultAction, State.severity, fixed, dry]
  have ended : takeFault h k s = finishJoint .fault none (some k) h
      (s.noted h (s.recordAfter h k .abort) (s.faultNoticed h k .abort)) := by
    rw [takeFault_noted held, action]; rfl
  have fr : ((takeFault h k s).head h).fr = s.recordAfter h k .abort := by
    rw [ended, finishJoint_head_same, State.noted_head_same]; rfl
  refine ⟨abort, recordAfter_recorded (by rw [abort]; exact fr), ?_, fun e => ?_, fun _ => ?_⟩
  · rw [ended]; exact (noted_others ..).trans (finishJoint_others ..)
  · rw [abort] at e; cases e
  · rw [abort, ended]
    exact .of_before (noted_others ..) ⟨_, _, State.noted_head_same ..⟩ rfl (faultNoticed_station s h k _)
      (fun g _ _ _ => by rw [State.noted_gen]) (finishJoint_ended (s.noted h _ _) ..)

/-- The end of the rescue of a head in service, on its generator (R103). -/
theorem endRescue_of_service {g : GenId} (service : (s.gen g).inService = some h) :
    endRescue g s = s.modGen g fun x => x.afterEnd h (s.mu.config.mode g) false false 0 := by
  have ended : endRescue g s = s.modGen g fun x =>
      { x with inService := none, limitTimer := none,
               rotation := if s.mu.config.mode g = .rotating then x.rotation.filter (fun k => k != h) ++ [h]
                 else x.rotation } := by
    rw [endRescue, service]
  rw [ended]
  refine State.modGen_congr s g ?_
  simp [Generator.afterEnd, service]

end Sys2Proof.Machine

namespace Sys2Proof.Proofs

open Sys2Proof.Machine

/-- Settles O8: both rows are `softReset`, whose fields are the table of R201. -/
theorem softResetAtMarkedReplyEnd : Obligations.SoftResetAtMarkedReplyEnd := by
  intro s f up port mark
  have event : softResetEvent s = softReset s := by
    rw [softResetEvent, State.sendsResetReply, port]; exact if_pos mark
  have sent : ∀ e, sendEnd { s with engEn := e } = { softReset s with engEn := e } := fun e => by
    simp only [sendEnd, port, mark]; rfl
  have heads : ∀ h, State.reset.head h = Head.powerOn := fun h => by simp [State.reset, State.head]
  have state : ∀ h, ((softReset s).head h).ctx.state = if (s.head h).cfg.enabled then .idle else .disabled :=
    fun h => by rw [softReset_head]; rfl
  have fine : ∀ h, (((softReset s).head h).ctx.state == .faulted) = false := fun h => by
    rw [state]; split <;> rfl
  have calm : ∀ g, (((softReset s).gen g).state == .faulted) = false := fun g => by
    rw [softReset_gen, Generator.softReset]
    dsimp only
    split <;> rfl
  refine ⟨softReset s, (live_of_running _ up).trans (congrArg _ event), fun e =>
    (live_of_running (fun s => sendEnd { s with engEn := e }) up).trans (congrArg _ (sent e)), rfl, rfl, up, rfl, rfl, rfl, rfl, rfl, ?_, ?_, rfl, rfl, fun g => ?_, fun h => ?_, fun g => ?_⟩
  · have free : ∀ h, ((softReset s).head h).ctx.reservation = false := fun h => by rw [softReset_head]; rfl
    simp [State.reservations, free]
  · have a := calm .a
    have b := calm .b
    simp only [State.gen] at a b
    simp [State.faultN, fine, a, b]
  · simp [softReset, State.reset, State.group, Input.reset]
  · rw [softReset_head, heads]; rfl
  · have configured : s.mu.config.hasGen g = decide (s.mu.config.station g ≠ 0 ∧ s.mu.config.rating g ≠ 0) := by
      rw [Bool.eq_iff_iff]
      simp [PartConfig.hasGen]
    rw [softReset_gen, reset_gen, configured]
    simp only [Generator.softReset, PhaseTable.lastIndex, decide_eq_true_eq]

/-- Settles O41: each expiry is its fault taken, which acts as the statements say. -/
theorem timerExpiriesRaiseFaults : Obligations.TimerExpiriesRaiseFaults := by
  intro s h up
  refine ⟨fun running timer => ?_, fun running timer ramp => ?_, fun suspended timer => ?_,
    fun g service timer running => ?_⟩
  · refine ⟨_, live_of_running _ up, ?_⟩
    rw [sampleExpiry, if_pos ⟨running, by rw [timer]; rfl⟩]
    exact takeFault_acts (.inl running) _
  · obtain ⟨a, b, c, d, e, segment⟩ := ramp
    refine ⟨_, live_of_running _ up, ?_⟩
    rw [segmentExpiry, if_pos ⟨running, by rw [timer]; rfl⟩, segment]
    exact takeFault_acts (.inl running) _
  · refine ⟨_, live_of_running _ up, ?_⟩
    rw [windowExpiry, if_pos ⟨suspended, by rw [timer]; rfl⟩]
    obtain ⟨abort, recorded, others, -, ends⟩ := takeFault_acts_of_fixed (s := s) (h := h) (k := .suspendExpired)
      (by rw [State.holds, suspended]; rfl) rfl nofun
    rw [abort] at recorded ends
    exact ⟨recorded, others, ends nofun⟩
  · refine ⟨_, live_of_running _ up, ?_⟩
    rw [rescueLimitExpiry, if_pos (by rw [timer]; rfl), service]
    dsimp only
    rw [endRescue_of_service service]
    exact takeFault_acts (.inl (by rw [State.head_modGen]; exact running)) _

end Sys2Proof.Proofs
end

section
/-! PROOFS. A frame built for the part reaches the block it is for, with its payload (R174, R175, R180, R181). -/

namespace Sys2Proof.Machine

variable {s t u : State}

/-! ### Built frames read back (R174, R175, R177) -/

/-- A 2-byte value is read back from its bytes (R177). -/
theorem ofLe16_le16 (w : Word16) : ofLe16 (byte w.toNat) (byte (w.toNat / 256)) = w := by
  have small : w.toNat < 65536 := w.isLt
  apply BitVec.eq_of_toNat_eq
  rw [ofLe16, BitVec.toNat_append, ← Nat.shiftLeft_add_eq_or_of_lt (BitVec.isLt _)]
  simp only [byte, BitVec.toNat_ofNat, Nat.shiftLeft_eq]
  omega

theorem le16_length (n : Nat) : (le16 n).length = 2 := rfl

theorem mkFrame_length (dst src kind : Byte) (payload : List Byte) :
    (mkFrame dst src kind payload).length = 6 + payload.length := by
  simp only [mkFrame, List.length_append, List.length_cons, le16_length]; omega

/-- A built frame's check field matches (R175). -/
theorem crcMatches_mkFrame (dst src kind : Byte) (payload : List Byte) :
    crcMatches (mkFrame dst src kind payload) = true := by
  let body := dst :: src :: kind :: byte payload.length :: payload
  have frame : mkFrame dst src kind payload = body ++ le16 (crc body).toNat := rfl
  have length : (mkFrame dst src kind payload).length - 2 = body.length := by
    rw [frame, List.length_append, le16_length, Nat.add_sub_cancel]
  rw [crcMatches, length, frame, List.take_left, List.drop_left, beq_self_eq_true]

/-- A built frame's fields are read back (R174). -/
theorem fieldsOf_mkFrame (dst src kind : Byte) (payload : List Byte) :
    fieldsOf (mkFrame dst src kind payload) = some ⟨dst, src, kind, byte payload.length, payload⟩ := by
  let body := dst :: src :: kind :: byte payload.length :: payload
  let rest := payload ++ le16 (crc body).toNat
  have frame : mkFrame dst src kind payload = dst :: src :: kind :: byte payload.length :: rest := rfl
  have whole : rest.take (rest.length - 2) = payload := by
    have length : rest.length - 2 = payload.length := by
      rw [List.length_append, le16_length, Nat.add_sub_cancel]
    rw [length, List.take_left]
  rw [frame]
  exact congrArg (fun p => some (Received.mk dst src kind (byte payload.length) p)) whole

/-! ### Arrival (R180) -/

/-- A frame arrives while RST_N is high and none under way is awaited; ENG_EN takes its level (R172, R189). -/
theorem exec_frameArrival (up : s.rstHeld = false) (fresh : s.rp.skipFrame = false) (bytes : List Byte) (e : Bool) :
    exec (.frameArrival bytes e) s = .next (arriveFrame bytes { s with engEn := e }) :=
  (live_of_running (receive e (arriveFrame bytes)) up).trans
    (congrArg Host.Outcome.next (if_neg (Bool.eq_false_iff.1 fresh)))

/-- A frame of a right length from another station to the part in normal operation is consumed (R180). -/
theorem arriveFrame_mkFrame {src kind : Byte} {payload : List Byte} (low : s.rp.station ≠ 0) (high : s.rp.station ≠ 63)
    (foreign : src ≠ s.ownStation) (fits : payload.length ≤ 248)
    (right : wrongLength ⟨s.ownStation, src, kind, byte payload.length, payload⟩ = false) :
    arriveFrame (mkFrame s.ownStation src kind payload) s =
      consume ⟨s.ownStation, src, kind, byte payload.length, payload⟩ s := by
  have length : (byte payload.length).toNat = payload.length := toNat_byte (by omega)
  have dst : s.ownStation.toNat ≤ 63 := by
    have := s.rp.station.isLt
    rw [State.ownStation, BitVec.toNat_setWidth]
    omega
  have open' : s.transparent = false := by
    simp only [State.transparent, beq_eq_false_iff_ne.2 low, beq_eq_false_iff_ne.2 high, Bool.or_self]
  have whole : ¬ ((mkFrame s.ownStation src kind payload).length < 6
      ∨ crcMatches (mkFrame s.ownStation src kind payload) = false) := by
    rw [crcMatches_mkFrame, mkFrame_length]; simp
  rw [arriveFrame, if_neg whole, routeFrame, fieldsOf_mkFrame]
  dsimp only
  rw [if_neg (by rw [length, mkFrame_length]; omega), open', if_neg Bool.false_ne_true, right,
    if_neg (fun bad => nomatch bad.2), if_neg foreign, if_pos rfl]

theorem sourceOk_of {station : Nat} {src : Byte} (ok : station = 0 ∨ station = src.toNat) :
    sourceOk station src = true := by
  rcases ok with e | e <;> simp [sourceOk, e]

/-- A SAMPLE frame to the part is handed to the Heat Control Unit (R181). -/
theorem exec_sampleFrame {e : Bool} {src : Byte} (consumes : s.Consumes src s.mu.config.concentrator)
    (head seq : Byte) (tm cur : Word16) (q flags : Byte) :
    exec (.frameArrival (s.sampleFrame src head seq tm cur q flags) e) s =
      .next (takeSample ([head, seq] ++ enc16 tm ++ enc16 cur ++ [q, flags]) { s with engEn := e }) := by
  obtain ⟨up, fresh, low, high, foreign, accepted⟩ := consumes
  have fits : ([head, seq] ++ enc16 tm ++ enc16 cur ++ [q, flags]).length ≤ 248 := show 8 ≤ 248 by decide
  refine (exec_frameArrival up fresh _ e).trans (congrArg Host.Outcome.next ?_)
  refine (arriveFrame_mkFrame (s := { s with engEn := e }) low high foreign fits rfl).trans ?_
  exact if_pos (sourceOk_of accepted)

/-- A GENSTAT frame to the part is handed to the Generator Monitor (R181). -/
theorem exec_genstatFrame {e : Bool} {src : Byte} {g : GenId} (consumes : s.Consumes src (s.mu.config.station g))
    (st : Byte) (v power : Word16) (slot head : Byte) :
    exec (.frameArrival (s.genstatFrame src (genCode g) st v power slot head) e) s =
      .next (takeGenstat ([genCode g, st] ++ enc16 v ++ enc16 power ++ [slot, head]) { s with engEn := e }) := by
  obtain ⟨up, fresh, low, high, foreign, accepted⟩ := consumes
  have fits : ([genCode g, st] ++ enc16 v ++ enc16 power ++ [slot, head]).length ≤ 248 := show 8 ≤ 248 by decide
  refine (exec_frameArrival up fresh _ e).trans (congrArg Host.Outcome.next ?_)
  refine (arriveFrame_mkFrame (s := { s with engEn := e }) low high foreign fits rfl).trans ?_
  have station : State.genstatStation { s with engEn := e }
      ([genCode g, st] ++ enc16 v ++ enc16 power ++ [slot, head]) = s.mu.config.station g := by
    cases g <;> rfl
  refine (if_neg (show (2 : Byte) ≠ 1 by decide)).trans ((if_pos rfl).trans (if_pos ?_))
  dsimp only
  rw [station]
  exact sourceOk_of accepted

end Sys2Proof.Machine
end

section
/-! PROOFS. A generator's report, whole: recorded and credited, then acting on the generator and its heads' turns
(R113, R117-R119, R121, R122, R124, R135). -/

namespace Sys2Proof.Machine

variable {s t u : State}

/-! ### Heads' turns as a run over the sixteen heads -/

/-- A run over some heads, each step of which changes its own head alone, is their turns; each comes to its head as
it stood before them all. -/
theorem Turns.of_foldl {turn : HeadId → State → State → Prop} {f : State → HeadId → State}
    (own : ∀ a h j, j ≠ h → (f a h).head j = a.head j)
    (each : ∀ a h, a.head h = s.head h → turn h a (f a h)) {l : List HeadId} (nd : l.Nodup) :
    Turns turn l s (l.foldl f s) := by
  suffices go : ∀ a, (∀ h ∈ l, a.head h = s.head h) → Turns turn l a (l.foldl f a) from go s fun _ _ => rfl
  induction l with
  | nil => exact fun _ _ => rfl
  | cons k l ih =>
    intro a before
    obtain ⟨fresh, nd⟩ := List.nodup_cons.1 nd
    refine Turns.cons_iff.2 ⟨f a k, each a k (before k (.head _)), ih nd _ fun h mem => ?_⟩
    rw [own a k h fun e => fresh (e ▸ mem)]
    exact before h (.tail _ mem)

/-! ### A generator's fault (R122) -/

theorem faultEntered_head (s : State) (g : GenId) (cause : GenCause) (h : HeadId) :
    (s.faultEntered g cause).head h = s.head h := by cases g <;> rfl

/-- The entry into FAULTED, up to its notice (R122 steps 1 to 4). -/
theorem faultEntered_eq (s : State) (g : GenId) (cause : GenCause) :
    (endRescue g (s.modGen g fun x =>
      { x with state := .faulted, cause := cause, wakeTimer := none, idleTimer := none,
               statusTimer := none })).noticeGenState g (s.gen g).state = s.faultEntered g cause := by
  let v := s.modGen g fun x =>
    { x with state := .faulted, cause := cause, wakeTimer := none, idleTimer := none, statusTimer := none }
  let f : Generator → Generator := fun x =>
    { x with
        state := .faulted, cause := cause, wakeTimer := none, idleTimer := none, statusTimer := none,
        inService := none,
        limitTimer := if x.inService = none then x.limitTimer else none,
        rotation := match x.inService with
          | some h => if s.mu.config.mode g = .rotating
              then x.rotation.filter (fun k => k != h) ++ [h] else x.rotation
          | none => x.rotation }
  have ended : endRescue g v = s.modGen g f := by
    have service : (v.gen g).inService = (s.gen g).inService := by simp only [v, State.gen_modGen_same]
    unfold endRescue
    rw [service]
    cases e : (s.gen g).inService with
    | none =>
      refine State.modGen_congr s g ?_
      simp only [f, e, if_true]
    | some h =>
      dsimp only [v]
      rw [State.modGen_modGen]
      refine State.modGen_congr s g ?_
      simp only [f, e, State.modGen_mu]
      rfl
  rw [ended, State.noticeGenState, State.notice_eq, State.gen_modGen_same]
  cases g <;> rfl

/-- A fault of a generator, as the statements say it (R122). -/
theorem faultGenerator_faulted (s : State) (g : GenId) (cause : GenCause) :
    GenFaulted g cause s (faultGenerator g cause s) := by
  refine GenFaulted.of_turns ?_
  have run : faultGenerator g cause s = allHeads.foldl (faultHeadOf g) (s.faultEntered g cause) := by
    rw [faultGenerator, ← faultEntered_eq]
  rw [run]
  refine Turns.of_foldl (fun a h j n => ?_) (fun a h same => ?_) (by decide)
  · unfold faultHeadOf
    dsimp only
    split
    · next live => exact (takeFault_acts live.2.symm _).others.heads j n
    · rfl
  · rw [faultEntered_head] at same
    have heated : s.heatedBy g h ↔ (a.head h).cfg.binding = some g
        ∧ ((a.head h).ctx.state = .waitGen ∨ (a.head h).ctx.state = .running) := by
      rw [same]; exact and_congr_right fun _ => or_comm
    refine ⟨fun is => ?_, fun isn't => if_neg fun e => isn't (heated.2 e)⟩
    have taken : faultHeadOf g a h = takeFault h .generatorFault a := if_pos (heated.1 is)
    rw [taken]
    exact takeFault_acts (heated.1 is).2.symm _

/-! ### A generator's entry into READY (R113) -/

/-- A head's entry into its segment, as the statements say it (R29, R65, R135). -/
theorem enterSegment_entryTurn (s : State) (h : HeadId) : EntryTurn h s (enterSegment h s) := by
  refine ⟨fun seg e => ?_, fun none => by rw [enterSegment, none]⟩
  intro x v
  have enters : enterSegment h s = if seg.heats then entryTest h v else v := enterSegment_entered s e
  have own : v.head h = x := by
    simp only [v]; split
    · exact State.head_modHead_same ..
    · exact State.leaving_head_same ..
  have inputs : x.inputs = (s.head h).inputs := by cases seg <;> rfl
  have verdict : v.verdict h = s.verdict h := by rw [State.verdict, own, inputs]; rfl
  have latched : v.latched h = s.latched h := by simp only [v]; split <;> rfl
  have live : (v.head h).ctx.state = .running ∨ (v.head h).ctx.state = .waitGen := by
    rw [own]; cases seg <;> exact .inl rfl
  rw [enters]
  refine ⟨fun passes => ?_, fun heats latch => ?_, fun heats latch open' => ?_⟩
  · rcases passes with cold | ⟨ok, clear⟩
    · rw [cold]; rfl
    · rw [entryTest_passes v (verdict.trans ok) (latched.trans clear), ite_self]
  · rw [if_pos heats, entryTest, latched, if_pos latch]
    exact takeFault_acts live _
  · rw [if_pos heats, entryTest, latched, verdict, latch, open', if_neg (by decide), if_neg (by decide)]
    exact takeFault_acts live _

/-! ### The station number stays -/

theorem offered_station (s : State) (rp : RingPort) (b : List Byte) : (s.offered rp b).station = rp.station := by
  unfold State.offered
  split
  · rfl
  · exact (placeNotice_frame ..).1

/-- A fault leaves the station number. -/
theorem FaultActs.station {h : HeadId} {k : FaultKind} (e : FaultActs h k s t) : t.rp.station = s.rp.station := by
  by_cases act : s.actionOn h k = .suspend
  · rw [(e.suspends act).2.2]; exact faultNoticed_station ..
  · rw [(e.ends act).ring, offered_station]; exact faultNoticed_station ..

/-- A head's entry into its segment leaves the station number. -/
theorem EntryTurn.station {h : HeadId} (e : EntryTurn h s t) : t.rp.station = s.rp.station := by
  cases segment : s.segment h with
  | none => rw [e.stays segment]
  | some seg =>
    obtain ⟨passes, coolant, interlock⟩ := e.enters seg segment
    let x := (s.head h).entered seg s.timebase (3 * s.slots.period)
    have entered : (if seg.isSoak then s.modHead h fun _ => x else s.leaving h x).rp.station = s.rp.station := by
      split <;> rfl
    cases heats : seg.heats with
    | false => rw [passes (.inl heats)]; exact entered
    | true =>
      cases latch : s.latched h with
      | true => exact (coolant heats latch).station.trans entered
      | false =>
        cases verdict : s.verdict h with
        | true => rw [passes (.inr ⟨verdict, latch⟩)]; exact entered
        | false => exact (interlock heats latch verdict).station.trans entered

/-- The notice of an entry into READY (R124; its cause byte is log 16). -/
theorem noticeGenState_of_ready {g : GenId} (ready : (s.gen g).state = .ready) (left : GenState) :
    s.noticeGenState g left = { s with
      rp := s.offered s.rp ([2, genCode g, left.code, 3, 0] ++ optBytes le16 (s.gen g).bus ++ [s.slots.number]) } := by
  rw [State.noticeGenState, State.notice_eq, ready]; rfl

/-- The entry of a WAKING generator into READY, as the statements say it (R113). -/
theorem readyGenerator_readied {g : GenId} (waking : (s.gen g).state = .waking) :
    GenReadied g s (readyGenerator g s) := by
  let v := s.modGen g fun x => { x with state := .ready, wakeTimer := none, statusTimer := some (3 * s.slots.period) }
  let w := allHeads.foldl (releaseWaiting g) v
  have turns : Turns (fun h a b => (s.waitsFor g h → EntryTurn h a b) ∧ (¬ s.waitsFor g h → b = a)) allHeads v w := by
    refine Turns.of_foldl (fun a h j n => ?_) (fun a h same => ?_) (by decide)
    · unfold releaseWaiting
      dsimp only
      split
      · exact (enterSegment_entryTurn a h).follows.heads j n
      · rfl
    · have waits : s.waitsFor g h ↔ (a.head h).cfg.binding = some g ∧ (a.head h).ctx.state = .waitGen := by
        rw [same, State.head_modGen]
      refine ⟨fun is => ?_, fun isn't => if_neg fun e => isn't (waits.2 e)⟩
      have released : releaseWaiting g a h = enterSegment h a := if_pos (waits.1 is)
      rw [released]
      exact enterSegment_entryTurn a h
  have kept : (w.gen g).state = .ready ∧ (w.gen g).bus = (s.gen g).bus ∧ w.rp.station = s.rp.station
      ∧ PartKept s w := by
    refine Turns.keeps (P := fun a => (a.gen g).state = .ready ∧ (a.gen g).bus = (s.gen g).bus
      ∧ a.rp.station = s.rp.station ∧ PartKept s a) (fun k a b f => ?_) (fun k a b _ _ pa f => ?_) (by decide) ?_ turns
    · by_cases q : s.waitsFor g k
      · exact (f.1 q).follows
      · rw [f.2 q]; exact .refl _ _
    · by_cases q : s.waitsFor g k
      · obtain ⟨state, bus, station, part⟩ := pa
        have shape := ((f.1 q).touched g).shape
        exact ⟨by rw [shape]; exact state, by rw [shape]; exact bus, (f.1 q).station.trans station,
          part.trans (f.1 q).partKept⟩
      · rw [f.2 q]; exact pa
    · rw [State.gen_modGen_same]
      refine ⟨rfl, rfl, by rw [State.modGen_rp], ?_⟩
      cases g <;> exact ⟨rfl, rfl, rfl, rfl, ⟨rfl, rfl, rfl, rfl⟩, List.prefix_rfl, fun j => .inl (by cases j <;> rfl)⟩
  obtain ⟨ready, bus, station, part⟩ := kept
  refine GenReadied.of_turns turns ?_
  let z := w.modGen g fun x => if w.genHeld g then x else { x with idleTimer := some s.mu.config.idleDelay }
  have idle : startIdleIfUnheld g w = z := by
    rw [startIdleIfUnheld_spec, part.mu]
    refine State.modGen_congr w g ?_
    rw [ready]
    cases w.genHeld g <;> rfl
  have own : (z.gen g).state = .ready ∧ (z.gen g).bus = (s.gen g).bus := by
    simp only [z, State.gen_modGen_same]
    split
    · exact ⟨ready, bus⟩
    · exact ⟨ready, bus⟩
  have offered : ∀ b, z.offered z.rp b = s.offered w.rp b := fun b => by
    simp only [z, State.offered, State.ownStation, State.modGen_rp, State.modGen_mu, station, part.mu]
  have readied : readyGenerator g s = (startIdleIfUnheld g w).noticeGenState g (s.gen g).state := rfl
  have number : z.slots.number = s.slots.number := by simp only [z, State.modGen_slots, part.slots]
  rw [readied, waking, idle, noticeGenState_of_ready own.1, offered, own.2, number]
  rfl

end Sys2Proof.Machine
end

section
/-! PROOFS. A GENSTAT, whole: read, recorded, credited, and acting on the generator (R113, R117-R122). -/

namespace Sys2Proof.Machine

variable {s t u : State}

/-! ### Reading a GENSTAT (R117, R178) -/

theorem reportedOf_eq {st : Byte} {r : Reported}
    (e : ([.standby, .waking, .ready, .fault] : List Reported)[st.toNat]? = some r) : reportedOf st = some r := by
  have short : st.toNat < 4 := by
    obtain ⟨inside, -⟩ := List.getElem?_eq_some_iff.1 e
    exact inside
  have cases : st = 0 ∨ st = 1 ∨ st = 2 ∨ st = 3 := by
    have all : st.toNat = 0 ∨ st.toNat = 1 ∨ st.toNat = 2 ∨ st.toNat = 3 := by omega
    exact all.imp BitVec.eq_of_toNat_eq (.imp BitVec.eq_of_toNat_eq (.imp BitVec.eq_of_toNat_eq BitVec.eq_of_toNat_eq))
  rcases cases with rfl | rfl | rfl | rfl <;> exact e

theorem entryOf_headCode (hd : Option HeadId) : entryOf (headCode hd) = some hd := by
  cases hd with
  | none => rfl
  | some h =>
    have named : byte h.val ≠ 255 := fun e => by
      have value := congrArg BitVec.toNat e
      rw [toNat_byte (by omega)] at value
      have := h.isLt
      simp at value
      omega
    simp only [entryOf, headCode, if_neg named, headOf_byte, Option.map_some]

theorem readGenstat_eq {g : GenId} {st : Byte} {r : Reported} (reported : reportedOf st = some r) (v power : Word16)
    (slot : Byte) (hd : Option HeadId) :
    readGenstat ([genCode g, st] ++ enc16 v ++ enc16 power ++ [slot, headCode hd]) =
      some { gen := g, reported := r, bus := min v.toNat 1000, delivered := min power.toNat 2500, slot := slot,
             head := hd } := by
  have gen : genOf (genCode g) = some g := by cases g <;> rfl
  change readGenstat [genCode g, st, byte v.toNat, byte (v.toNat / 256), byte power.toNat, byte (power.toNat / 256), slot,
    headCode hd] = _
  simp only [readGenstat, gen, reported, entryOf_headCode, ofLe16_le16]

/-! ### Crediting (R121) -/

/-- The oldest entry of a slot and head stands after others of neither (R121; log 34). -/
theorem historyEntry_append {pre post : List DriveEntry} {x : DriveEntry} {slot : Byte} {h : HeadId}
    (here : x.slot = slot ∧ x.head = h) (before : ∀ y ∈ pre, ¬ (y.slot = slot ∧ y.head = h)) :
    historyEntry (pre ++ x :: post) slot h = some x := by
  have skipped : pre.find? (fun e => e.slot == slot && e.head == h) = none :=
    List.find?_eq_none.2 fun y mem => by simpa using before y mem
  rw [historyEntry, List.find?_append, skipped, Option.none_or]
  exact List.find?_cons_of_pos (by simp [here])

theorem historyEntry_none {l : List DriveEntry} {slot : Byte} {h : HeadId}
    (absent : ∀ x ∈ l, ¬ (x.slot = slot ∧ x.head = h)) : historyEntry l slot h = none :=
  List.find?_eq_none.2 fun y mem => by simpa using absent y mem

/-- A report recorded and credited, as the statements say it (R117, R121). -/
theorem report_taken (s : State) (g : GenId) (r : Reported) (v power : Nat) (slot : Byte) (hd : Option HeadId) :
    ReportTaken g r v power slot hd s (creditEnergy
      { gen := g, reported := r, bus := min v 1000, delivered := min power 2500, slot := slot, head := hd }
      (recordReport
        { gen := g, reported := r, bus := min v 1000, delivered := min power 2500, slot := slot, head := hd } s)) := by
  rw [recordReport_eq _ _ rfl]
  have history : ((s.reportRecorded g r v).gen g).history = (s.gen g).history := by
    rw [State.reportRecorded, State.gen_modGen_same]
  have head : ∀ h, (s.reportRecorded g r v).head h = s.head h := fun h => State.head_modGen ..
  have some' : ∀ {h}, hd = some h → 1 ≤ power → hd = some h ∧ min power 2500 ≠ 0 := fun e p => ⟨e, by omega⟩
  refine ⟨fun silent => ?_, fun h e p absent => ?_, fun h pre x post e p list slot' head' before held serial => ?_,
    fun h pre x post e p list slot' head' before away => ?_⟩
  · rcases silent with rfl | rfl
    · rfl
    · cases hd <;> rfl
  · subst e
    simp only [creditEnergy, history, historyEntry_none absent, if_neg (some' rfl p).2]
  · subst e
    have entry : historyEntry (s.gen g).history slot h = some x := by
      rw [list]; exact historyEntry_append ⟨slot', head'⟩ before
    have own : (s.reportRecorded g r v).holds h = true ∧ ((s.reportRecorded g r v).head h).ctx.serial = x.serial := by
      rw [State.holds, head]; exact ⟨held, serial⟩
    simp only [creditEnergy, history, entry, if_neg (some' rfl p).2, if_pos own]
    cases g <;> rfl
  · subst e
    have entry : historyEntry (s.gen g).history slot h = some x := by
      rw [list]; exact historyEntry_append ⟨slot', head'⟩ before
    have other : ¬ ((s.reportRecorded g r v).holds h = true ∧ ((s.reportRecorded g r v).head h).ctx.serial = x.serial) := by
      rw [State.holds, head]
      rintro ⟨held, serial⟩
      rcases away with free | other
      · rw [State.holds, held] at free; cases free
      · exact other serial
    simp only [creditEnergy, history, entry, if_neg (some' rfl p).2, if_neg other]

/-- Recording and crediting leave the generator's state (R117). -/
theorem report_gen_state (m : Genstat) (s : State) :
    ((creditEnergy m (recordReport m s)).gen m.gen).state = (s.gen m.gen).state := by
  have recorded : ((recordReport m s).gen m.gen).state = (s.gen m.gen).state := by
    rw [recordReport, State.gen_modGen_same]
  rw [← recorded]
  rcases creditEnergy_cases (recordReport m s) m with e | ⟨h, d, -, -, e⟩ | ⟨h, x, -, -, -, -, e⟩ <;> rw [e]
  · rfl
  · exact congrArg Generator.state (State.gen_modHead ..)

/-! ### The reported state's effect (R118) -/

section
variable {g : GenId} {r : Reported}

theorem applyReport_of_fault (live : (u.gen g).state ≠ .off) (fresh : (u.gen g).state ≠ .faulted) :
    applyReport g .fault u = faultGenerator g .reportedFault u := by
  unfold applyReport
  cases e : (u.gen g).state with
  | off => exact absurd e live
  | faulted => exact absurd e fresh
  | standby | waking | ready => rfl

theorem applyReport_of_lost (ready : (u.gen g).state = .ready) (lost : r = .standby ∨ r = .waking) :
    applyReport g r u = faultGenerator g .unexpectedState u := by
  unfold applyReport
  cases e : (u.gen g).state <;> cases ready.symm.trans e
  rcases lost with rfl | rfl <;> rfl

theorem applyReport_of_ready (waking : (u.gen g).state = .waking) : applyReport g .ready u = readyGenerator g u := by
  unfold applyReport
  cases e : (u.gen g).state <;> cases waking.symm.trans e
  rfl

theorem applyReport_of_stays (stays : (u.gen g).state = .faulted ∨ ((u.gen g).state = .standby ∧ r ≠ .fault)
    ∨ ((u.gen g).state = .ready ∧ r = .ready)
    ∨ ((u.gen g).state = .waking ∧ (r = .standby ∨ r = .waking))) : applyReport g r u = u := by
  unfold applyReport
  rcases stays with e | ⟨e, calm⟩ | ⟨e, rfl⟩ | ⟨e, rfl | rfl⟩ <;> rw [e]
  cases r with
  | fault => exact absurd rfl calm
  | standby | waking | ready => rfl

end

end Sys2Proof.Machine

namespace Sys2Proof.Proofs

open Sys2Proof.Machine

/-- Settles O48: the report recorded and credited, then the branches of `applyReport`, whose two changes of state are
`faultGenerator_faulted` and `readyGenerator_readied`. -/
theorem genstatMovesGeneratorState : Obligations.GenstatMovesGeneratorState := by
  intro s e src v power slot st g r hd consumes reported old live
  let a : State := { s with engEn := e }
  let m : Genstat :=
    { gen := g, reported := r, bus := min v.toNat 1000, delivered := min power.toNat 2500, slot := slot, head := hd }
  let u := creditEnergy m (recordReport m a)
  have state : (u.gen g).state = old := report_gen_state m a
  have taken : takeGenstat ([genCode g, st] ++ enc16 v ++ enc16 power ++ [slot, headCode hd]) a = applyReport g r u := by
    unfold takeGenstat
    rw [readGenstat_eq (reportedOf_eq reported)]
    exact if_neg live
  refine ⟨u, applyReport g r u, report_taken a g r v.toNat power.toNat slot hd,
    (exec_genstatFrame consumes st v power slot (headCode hd)).trans (congrArg _ taken), fun fault fresh => ?_,
    fun lost ready => ?_, fun ready waking => ?_, fun stays => ?_⟩
  · subst fault
    rw [applyReport_of_fault (by rw [state]; exact live) (by rw [state]; exact fresh)]
    exact faultGenerator_faulted ..
  · rw [applyReport_of_lost (state.trans ready) lost]
    exact faultGenerator_faulted ..
  · subst ready
    rw [applyReport_of_ready (state.trans waking)]
    exact readyGenerator_readied (state.trans waking)
  · rw [← state] at stays
    exact applyReport_of_stays stays

end Sys2Proof.Proofs
end

section
/-! PROOFS. An accepted SAMPLE of a head that holds a joint, by the steps of R54 (R51-R64, R67, R69). -/

namespace Sys2Proof.Machine

variable {s t u : State}

/-! ### Reading a SAMPLE (R50, R178) -/

theorem quality_cases {q : Byte} (short : q.toNat < 3) : q = 0 ∨ q = 1 ∨ q = 2 := by
  have all : q.toNat = 0 ∨ q.toNat = 1 ∨ q.toNat = 2 := by omega
  exact all.imp BitVec.eq_of_toNat_eq (.imp BitVec.eq_of_toNat_eq BitVec.eq_of_toNat_eq)

/-- The quality of a byte below 3. -/
theorem qualityOf_eq {q : Byte} (short : q.toNat < 3) :
    qualityOf q = some (if q = 0 then .good else if q = 1 then .weak else .none) := by
  rcases quality_cases short with rfl | rfl | rfl <;> rfl

/-- A quality byte below 3 reaches the filter unless it is 2 (R55). -/
theorem usable_iff {q : Byte} (short : q.toNat < 3) :
    (if q = 0 then Quality.good else if q = 1 then .weak else .none).usable = true ↔ q ≠ 2 := by
  rcases quality_cases short with rfl | rfl | rfl <;> decide

/-- What differs by whether a sample is usable differs by whether its quality byte is 2. -/
theorem ite_usable {α : Type} {q : Byte} (short : q.toNat < 3) (dark lit : α) :
    (if q = 2 then dark else lit) =
      if (if q = 0 then Quality.good else if q = 1 then .weak else .none).usable then lit else dark := by
  by_cases e : q = 2
  · rw [if_pos e, if_neg fun on => (usable_iff short).1 on e]
  · rw [if_neg e, if_pos ((usable_iff short).2 e)]

/-- A sample as a head keeps it, at the time of its taking (R52). -/
def TakenSample.keptAt (m : TakenSample) (now : Word32) : Sample :=
  ⟨m.seq, m.temp, m.current, m.quality, m.saturated, now⟩

/-- The sample a SAMPLE frame carries, as taken: temperature and current clamped (R50). -/
def takenOf (h : HeadId) (seq q fl : Byte) (tm cur : Word16) : TakenSample :=
  { head := h, seq := seq, temp := if fl.getLsbD 0 then 12000 else min tm.toNat 12000, current := min cur.toNat 4000,
    quality := if q = 0 then .good else if q = 1 then .weak else .none, saturated := fl.getLsbD 0 }

theorem readSample_eq {q : Byte} (short : q.toNat < 3) (h : HeadId) (seq fl : Byte) (tm cur : Word16) :
    readSample ([byte h.val, seq] ++ enc16 tm ++ enc16 cur ++ [q, fl]) = some (takenOf h seq q fl tm cur) := by
  have value : (byte h.val).toNat = h.val := toNat_byte (by omega)
  have named : ∀ inside : (byte h.val).toNat < 16, (⟨(byte h.val).toNat, inside⟩ : HeadId) = h :=
    fun _ => Fin.ext value
  change readSample [byte h.val, seq, byte tm.toNat, byte (tm.toNat / 256), byte cur.toNat, byte (cur.toNat / 256), q,
    fl] = _
  have inside : (byte h.val).toNat < 16 := by rw [value]; exact h.isLt
  simp only [readSample, inside, dif_pos, qualityOf_eq short, named, ofLe16_le16, takenOf]

/-! ### Keeping and counting (R51, R52) -/

/-- A head that has kept and counted a sample (R51, R52). -/
def Head.keeping (x : Head) (m : Sample) : Head :=
  { x with deviations := x.sampleCounts m, hcu := { x.hcu with seqRef := some m.seq, lastSample := some m } }

theorem sampleCounts_of_gap {x : Head} {m : Sample} {ref : Byte} (e : x.hcu.seqRef = some ref)
    (gap : 2 ≤ (m.seq - ref).toNat) : x.sampleCounts m =
      let d := x.deviations.set 0 (min (x.deviations[0] + 1) 65535)
      if m.quality = .weak then d.set 3 (min (d[3] + 1) 65535) else d := by
  simp only [Head.sampleCounts, e, if_pos gap]

theorem sampleCounts_of_next {x : Head} {m : Sample} (next : ∀ ref, x.hcu.seqRef = some ref → (m.seq - ref).toNat < 2) :
    x.sampleCounts m =
      if m.quality = .weak then x.deviations.set 3 (min (x.deviations[3] + 1) 65535) else x.deviations := by
  cases e : x.hcu.seqRef with
  | none => simp only [Head.sampleCounts, e]
  | some ref => simp only [Head.sampleCounts, e, if_neg (Nat.not_le.2 (next ref e))]

/-- A head that has kept a sample, and counted it where WEAK (R52). -/
def Head.kept (x : Head) (m : TakenSample) (now : Word32) : Head :=
  { x with
      deviations := if m.quality = .weak then x.deviations.set 3 (count16 x.deviations[3]) else x.deviations,
      hcu := { x.hcu with seqRef := some m.seq, lastSample := some (m.keptAt now) } }

/-- An accepted sample of a head that holds a joint is kept, counted where WEAK, and processed (R52-R55). -/
theorem acceptSample_eq {m : TakenSample} {rc : Recipe} (held : s.holds m.head = true)
    (recipe : s.recipe m.head = some rc) :
    acceptSample m s = processSample m rc.params (s.modHead m.head fun x => x.kept m s.timebase) := by
  let k := s.modHead m.head fun x => x.kept m s.timebase
  have own : k.head m.head = (s.head m.head).kept m s.timebase := State.head_modHead_same ..
  have kept : (if m.quality = .weak then (keepSample m s).countDev m.head .weak else keepSample m s) = k := by
    split
    · next weak =>
      rw [keepSample, State.modHcu, State.countDev, State.modHead_modHead]
      refine State.modHead_congr s m.head ?_
      simp only [Head.kept, if_pos weak]
      rfl
    · next strong =>
      rw [keepSample, State.modHcu]
      refine State.modHead_congr s m.head (f' := fun x => x.kept m s.timebase) ?_
      simp only [Head.kept, if_neg strong]
      rfl
  have held_k : k.holds m.head = true := by rw [State.holds, own]; exact held
  have recipe_k : k.recipe m.head = some rc := by rw [State.recipe, own]; exact recipe
  unfold acceptSample
  dsimp only
  rw [kept, if_pos held_k, recipe_k]

/-- A sample in sequence is taken, and counted where it lies 2 or more after the reference (R51). -/
theorem sequenceSample_of_accepts {m : TakenSample} {rc : Recipe} (accepts : (s.head m.head).accepts m.seq = true)
    (held : s.holds m.head = true) (recipe : s.recipe m.head = some rc) :
    sequenceSample m s = processSample m rc.params (s.modHead m.head fun x => x.keeping (m.keptAt s.timebase)) := by
  have plain : (∀ r, (s.head m.head).hcu.seqRef = some r → (m.seq - r).toNat < 2) →
      acceptSample m s = processSample m rc.params (s.modHead m.head fun x => x.keeping (m.keptAt s.timebase)) :=
    fun next => by
      rw [acceptSample_eq held recipe]
      refine congrArg (processSample m rc.params) (State.modHead_congr s m.head ?_)
      rw [Head.keeping, sampleCounts_of_next next]
      rfl
  unfold sequenceSample seqCheck
  unfold Head.accepts at accepts
  cases ref : (s.head m.head).hcu.seqRef with
  | none => exact plain fun r e => nomatch ref.symm.trans e
  | some r =>
    have near : 1 ≤ (m.seq - r).toNat ∧ (m.seq - r).toNat < 128 := by simpa [ref] using accepts
    dsimp only
    rw [if_neg (by omega)]
    by_cases next : (m.seq - r).toNat = 1
    · rw [if_pos next]
      refine plain fun k e => ?_
      obtain rfl := Option.some.inj (ref.symm.trans e)
      omega
    · rw [if_neg next, if_pos (by omega)]
      have gap : 2 ≤ (m.seq - r).toNat := by omega
      let c := s.countDev m.head .sequenceGap
      have own : c.head m.head = _ := State.head_modHead_same ..
      have held_c : c.holds m.head = true := by rw [State.holds, own]; exact held
      have recipe_c : c.recipe m.head = some rc := by rw [State.recipe, own]; exact recipe
      change acceptSample m c = _
      rw [acceptSample_eq held_c recipe_c]
      refine congrArg (processSample m rc.params) ((State.modHead_modHead ..).trans (State.modHead_congr s m.head ?_))
      rw [Head.keeping, sampleCounts_of_gap ref gap]
      rfl

/-- The arrival of an accepted SAMPLE of a head that holds a joint (R50-R54). -/
theorem exec_sampleFrame_processes {e : Bool} {src seq q fl : Byte} {tm cur : Word16} {h : HeadId} {rc : Recipe}
    (consumes : s.Consumes src s.mu.config.concentrator) (accepts : (s.head h).accepts seq = true)
    (short : q.toNat < 3) (recipe : s.recipe h = some rc) (held : s.holds h = true) :
    exec (.frameArrival (s.sampleFrame src (byte h.val) seq tm cur q fl) e) s =
      .next (processSample (takenOf h seq q fl tm cur) rc.params
        (State.modHead { s with engEn := e } h fun x =>
          x.keeping ((takenOf h seq q fl tm cur).keptAt s.timebase))) := by
  refine (exec_sampleFrame consumes (byte h.val) seq tm cur q fl).trans (congrArg Host.Outcome.next ?_)
  unfold takeSample
  rw [readSample_eq short]
  exact sequenceSample_of_accepts (s := { s with engEn := e }) (m := takenOf h seq q fl tm cur) accepts held recipe

/-! ### Steps 2 to 5 of R54 -/

/-- The segment is a RAMP. -/
def Segment.isRamp : Segment → Bool
  | .ramp .. => true
  | _ => false

/-- Measuring a kept sample, as the statements say it (R51, R52, R55-R58, R60). -/
theorem measured_keeping (x : Head) (m : TakenSample) (p : Params) (seg : Option Segment) (now : Word32) (cap : Nat) :
    (x.keeping (m.keptAt now)).measured m p (seg.any Segment.isRamp) now cap = x.sampled seg p (m.keptAt now) cap := by
  have temp : (if m.quality.usable then filterUpdate (x.keeping (m.keptAt now)).hcu.filtered m.temp
      (m.quality.weight p.weight) else (x.keeping (m.keptAt now)).hcu.filtered) = x.tempAfter p (m.keptAt now) :=
    (tempAfter_eq x p (m.keptAt now)).symm
  unfold Head.measured
  dsimp only
  rw [temp]
  unfold Head.sampled
  generalize x.tempAfter p (m.keptAt now) = tf
  have quality : (m.keptAt now).quality = m.quality := rfl
  simp only [Head.keeping, Head.mk.injEq, HeadContext.mk.injEq, true_and, and_true, quality]
  refine ⟨⟨?_, ?_, ?_⟩, rfl⟩
  · cases seg with
    | none => rfl
    | some g =>
      cases g with
      | soak | cool => rfl
      | ramp =>
        by_cases fresh : x.ctx.rampOrigin = none
        · cases m.quality <;> simp [fresh, Segment.isRamp, Quality.usable]
        · obtain ⟨o, stands⟩ := Option.ne_none_iff_exists'.1 fresh
          simp [stands]
  · cases m.quality <;> cases tf <;> simp [peakAfter, Quality.usable]
  · cases x.hcu.prevTime <;> cases tf <;> rfl

end Sys2Proof.Machine
end

section
/-! PROOFS. The processing of a kept sample: OVERTEMP, the coupling check, setpoint and control law, and the exit
(R30, R54, R59-R64, R67, R69). -/

namespace Sys2Proof.Machine

variable {s t u : State} {m : TakenSample} {p : Params}

/-! ### What the sample is measured by -/

/-- The segment a head is RUNNING in. -/
def State.runningIn (s : State) (h : HeadId) : Option Segment :=
  if (s.head h).ctx.state = .running then s.segment h else none

theorem inRamp_eq (s : State) (h : HeadId) : s.inRamp h = (s.runningIn h).any Segment.isRamp := by
  unfold State.inRamp State.runningIn
  by_cases running : (s.head h).ctx.state = .running
  · rw [if_pos running, running]
    cases s.segment h with
    | none => rfl
    | some seg => cases seg <;> rfl
  · rw [if_neg running, beq_eq_false_iff_ne.2 running]; rfl

/-- A kept sample's head, measured (R54 steps 2 to 5). -/
theorem keeping_measured (s : State) (m : TakenSample) (p : Params) :
    let k := s.modHead m.head fun x => x.keeping (m.keptAt s.timebase)
    (k.modHead m.head fun x => x.measured m p (k.inRamp m.head) k.timebase k.threeSlots) =
      s.modHead m.head fun x => x.sampled (s.runningIn m.head) p (m.keptAt s.timebase) (3 * s.slots.period) := by
  intro k
  have own : k.head m.head = (s.head m.head).keeping (m.keptAt s.timebase) := State.head_modHead_same ..
  have ramp : k.inRamp m.head = (s.runningIn m.head).any Segment.isRamp := by
    rw [← inRamp_eq]
    simp only [State.inRamp, State.segment, State.recipe, own]
    rfl
  rw [ramp]
  exact (State.modHead_modHead ..).trans (State.modHead_congr s m.head (measured_keeping ..))

/-- A head overheats where a usable sample lifts its temperature above the maximum (R59). -/
theorem overheats_sampled_iff (x : Head) (seg : Option Segment) (now : Word32) (cap : Nat) :
    (x.sampled seg p (m.keptAt now) cap).overheats m p = true ↔
      m.quality.usable = true ∧ ∃ tf, x.tempAfter p (m.keptAt now) = some tf ∧ p.maxTemp < tf := by
  have filtered : (x.sampled seg p (m.keptAt now) cap).hcu.filtered = x.tempAfter p (m.keptAt now) := rfl
  unfold Head.overheats
  rw [filtered, Bool.and_eq_true]
  refine and_congr_right fun _ => ?_
  cases x.tempAfter p (m.keptAt now) <;> simp

/-- Only a sample that is not usable can leave a head without a temperature (R55, R56). -/
theorem not_usable_of_tempAfter {x : Head} {now : Word32} (none : x.tempAfter p (m.keptAt now) = none) :
    m.quality.usable = false := by
  rw [tempAfter_eq] at none
  rw [← Bool.not_eq_true]
  intro usable
  have quality : (m.keptAt now).quality = m.quality := rfl
  rw [quality, if_pos usable] at none
  cases e : x.hcu.filtered <;> rw [e] at none <;> cases none

/-! ### The steps of a kept sample -/

section
variable {v : State} (measured : v = s.modHead m.head fun x =>
  x.sampled (s.runningIn m.head) p (m.keptAt s.timebase) (3 * s.slots.period))
include measured

theorem processSample_eq :
    processSample m p (s.modHead m.head fun x => x.keeping (m.keptAt s.timebase)) =
      if (v.head m.head).overheats m p then takeFault m.head .overtemp v
      else
        let c := v.modHead m.head fun x => x.coupled m (3 * s.slots.period)
        if (c.head m.head).ctx.state = .running then
          if (c.head m.head).ctx.couplingLow = 3 then takeFault m.head .couplingLow c else runSample m p c
        else c := by
  have key := keeping_measured s m p
  rw [← measured] at key
  unfold processSample
  dsimp only at key ⊢
  rw [key, measured]
  rfl

/-- Outside RUNNING nothing follows but the clearing of served-since-sample (R54, R67). -/
theorem processSample_of_still (still : (s.head m.head).ctx.state ≠ .running)
    (fine : (v.head m.head).overheats m p = false) :
    processSample m p (s.modHead m.head fun x => x.keeping (m.keptAt s.timebase)) =
      v.modHead m.head fun y => { y with ctx := { y.ctx with served := false } } := by
  have state : (v.head m.head).ctx.state = (s.head m.head).ctx.state := by rw [measured, State.head_modHead_same]; rfl
  have off : ((v.head m.head).ctx.state == .running) = false := by rw [state]; exact beq_eq_false_iff_ne.2 still
  have coupled : (v.modHead m.head fun x => x.coupled m (3 * s.slots.period)) =
      v.modHead m.head fun y => { y with ctx := { y.ctx with served := false } } := by
    refine State.modHead_congr v m.head ?_
    simp only [Head.coupled, off, Bool.false_and, Bool.false_eq_true, if_false]
  rw [processSample_eq measured, fine, if_neg Bool.false_ne_true]
  dsimp only
  rw [coupled, State.head_modHead_same, if_neg (by rw [← state] at still; exact still)]

/-- In RUNNING the sample timer restarts and the coupling check is made (R33, R67, R69). -/
theorem processSample_of_running (running : (s.head m.head).ctx.state = .running)
    (fine : (v.head m.head).overheats m p = false) :
    processSample m p (s.modHead m.head fun x => x.keeping (m.keptAt s.timebase)) =
      let c := v.modHead m.head fun y => y.checked (m.keptAt s.timebase) (3 * s.slots.period)
      if (s.head m.head).lowCount (m.keptAt s.timebase) = 3 then takeFault m.head .couplingLow c else runSample m p c := by
  have own : v.head m.head = (s.head m.head).sampled (s.runningIn m.head) p (m.keptAt s.timebase)
      (3 * s.slots.period) := by rw [measured]; exact State.head_modHead_same ..
  have state : (v.head m.head).ctx.state = .running := by rw [own]; exact running
  have on : ((v.head m.head).ctx.state == .running) = true := beq_iff_eq.2 state
  have low : (v.head m.head).lowCount (m.keptAt s.timebase) = (s.head m.head).lowCount (m.keptAt s.timebase) := by
    rw [own]; rfl
  have count : (v.head m.head).couplingAfter m.current = (v.head m.head).lowCount (m.keptAt s.timebase) := by
    simp only [Head.couplingAfter, Head.lowCount, Bool.and_eq_true, bne_iff_ne, decide_eq_true_eq, and_assoc]
    rfl
  have coupled : (v.modHead m.head fun x => x.coupled m (3 * s.slots.period)) =
      v.modHead m.head fun y => y.checked (m.keptAt s.timebase) (3 * s.slots.period) := by
    refine State.modHead_congr v m.head ?_
    simp only [Head.coupled, on, Bool.true_and, if_true, count]
    cases quality : m.quality <;> simp only [Head.checked, TakenSample.keptAt, quality] <;> rfl
  rw [processSample_eq measured, fine, if_neg Bool.false_ne_true]
  dsimp only
  rw [coupled, State.head_modHead_same, if_pos (by exact state)]
  rw [← low]
  rfl

end

/-! ### Setpoint, control law and exit (R30, R61-R64) -/

theorem steer_filtered (x : Hcu) (seg : Segment) (origin : Option Nat) (elapsed : Nat) :
    (x.steer p seg origin elapsed).filtered = x.filtered := by
  unfold Hcu.steer
  split
  · rfl
  · rfl
  · split <;> rfl
  · rfl

/-- A sample that is not usable leaves a head without a temperature as it is: no law, no exit (R30, R54). -/
theorem runSample_of_blind {c : State} {seg : Segment} (segment : c.segment m.head = some seg)
    (blind : (c.head m.head).hcu.filtered = none) (unusable : m.quality.usable = false) : runSample m p c = c := by
  rw [runSample, segment]
  dsimp only
  rw [unusable, if_neg Bool.false_ne_true, blind]

/-- A head in a segment other than a SOAK, steered by a usable sample, exits on its temperature (R30, R54). -/
theorem runSample_of_tempered {c w : State} {seg : Segment} {tf : Nat} (segment : c.segment m.head = some seg)
    (hurried : seg.isSoak = false) (tempered : (c.head m.head).hcu.filtered = some tf)
    (steered : w = if m.quality.usable then c.modHead m.head fun x =>
      { x with hcu := x.hcu.steer p seg x.ctx.rampOrigin (c.since x.ctx.segStart) } else c) :
    runSample m p c = if seg.exitsAt tf then exitSegment m.head w else w := by
  have filtered : (w.head m.head).hcu.filtered = some tf := by
    rw [steered]
    split
    · rw [State.head_modHead_same]
      dsimp only
      rw [steer_filtered]; exact tempered
    · exact tempered
  rw [runSample, segment]
  dsimp only
  rw [← steered, filtered]
  cases seg with
  | soak => cases hurried
  | ramp | cool => rfl

/-- The exit of a steered head, as the statements say it (R30). -/
theorem steered_exited {c w : State} {rc : Recipe} {f : Head → Hcu} {b : Prop} [Decidable b]
    (steered : w = if b then c.modHead m.head fun x => { x with hcu := f x } else c)
    (recipe : c.recipe m.head = some rc) (off : (c.head m.head).ctx.entryOffset = 0)
    (cont : (c.head m.head).ctx.contEntry = false) : SegmentExited m.head rc w (exitSegment m.head w) := by
  have ctx : (w.head m.head).ctx = (c.head m.head).ctx := by
    rw [steered]; split
    · rw [State.head_modHead_same]
    · rfl
  have profiles : w.profiles = c.profiles := by rw [steered]; split <;> rfl
  have same := State.profile_of_profiles profiles
  refine exitSegment_exited ?_ (by rw [ctx]; exact off) (by rw [ctx]; exact cont)
  rw [State.recipe, ctx]
  simp only [same]
  exact recipe

/-- A usable sample runs the law of a RAMP from its origin (R61-R64). -/
theorem steered_ramp {c : State} {tf origin : Nat} (target rate reach limit ceiling : Nat)
    (tempered : (c.head m.head).hcu.filtered = some tf)
    (placed : m.quality.usable = true → (c.head m.head).ctx.rampOrigin = some origin) :
    (if m.quality.usable then c.modHead m.head fun x =>
      { x with hcu := x.hcu.steer p (.ramp target rate reach limit ceiling) x.ctx.rampOrigin (c.since x.ctx.segStart) }
      else c) =
    if m.quality.usable then c.modHcu m.head fun u =>
      u.controlled p (rampSetpoint target rate origin (c.since (c.head m.head).ctx.segStart)) tf ceiling
    else c := by
  split
  · next usable =>
    refine State.modHead_congr c m.head ?_
    simp only [placed usable, Hcu.steer, tempered, control_eq_controlled]
  · rfl

/-- A usable sample leaves a RAMP with an origin: its own, or the temperature it now has (R60). -/
theorem sampled_origin {x : Head} {M : Sample} {tf cap : Nat} (usable : M.quality.usable = true)
    (tempered : x.tempAfter p M = some tf) (target rate reach limit ceiling : Nat) :
    (x.sampled (some (.ramp target rate reach limit ceiling)) p M cap).ctx.rampOrigin =
      some (x.ctx.rampOrigin.getD tf) := by
  have lit : M.quality ≠ .none := fun off => by rw [off] at usable; cases usable
  simp only [Head.sampled, tempered]
  by_cases fresh : x.ctx.rampOrigin = none
  · simp [fresh, lit]
  · obtain ⟨o, stands⟩ := Option.ne_none_iff_exists'.1 fresh
    simp [stands]

end Sys2Proof.Machine
end

section
/-! PROOFS. The arrival of a SAMPLE of a head that holds a joint, as the statements say it (R54). -/

namespace Sys2Proof.Proofs

open Sys2Proof.Machine

/-- Settles O45: the frame is read and its sample kept; then the steps of R54, in WAIT_GEN and SUSPENDED
`processSample_of_still`, in RUNNING `processSample_of_running` and `runSample_of_tempered`. -/
theorem sampleRunsFilterAndControlLaw : Obligations.SampleRunsFilterAndControlLaw := by
  intro s e src seq q fl tm cur h p rc consumes profile recipe accepts short x m three run hot
  let a : State := { s with engEn := e }
  let taken := takenOf h seq q fl tm cur
  have bound : a.recipe h = some rc := by
    change (x.ctx.profile.bind fun p => (s.profile p).recipe) = some rc
    rw [profile]; exact recipe
  have arrives : x.ctx.state.holdsJoint = true →
      run = .next (processSample taken rc.params (a.modHead h fun x => x.keeping m)) :=
    exec_sampleFrame_processes consumes accepts short bound
  have heat : ∀ sg, (x.sampled sg rc.params m three).overheats taken rc.params = true ↔ hot := fun sg =>
    (overheats_sampled_iff (m := taken) (p := rc.params) x sg s.timebase three).trans
      (and_congr_left' (usable_iff short))
  refine ⟨fun waits => ?_, fun seg running at_index => ?_⟩
  · intro measured
    have own : measured.head h = x.sampled none rc.params m three := State.head_modHead_same ..
    have heated : (measured.head h).overheats taken rc.params = true ↔ hot := by rw [own]; exact heat _
    have still : x.ctx.state ≠ .running := by rcases waits with e | e <;> rw [e] <;> nofun
    have held : x.ctx.state.holdsJoint = true := by rcases waits with e | e <;> rw [e] <;> rfl
    have steps : measured = a.modHead h fun x => x.sampled (a.runningIn h) rc.params m three := by
      rw [show a.runningIn h = none from if_neg still]
    refine ⟨fun is => ⟨_, (arrives held).trans (congrArg Host.Outcome.next
      ((processSample_eq (s := a) (m := taken) steps).trans (if_pos ?_))), ?_⟩,
      fun isn't => (arrives held).trans (congrArg Host.Outcome.next ?_)⟩
    · exact heated.2 is
    · have holds : measured.holds h = true := by rw [State.holds, own]; exact held
      exact (takeFault_acts_of_fixed (k := .overtemp) holds rfl nofun).2
    · exact processSample_of_still (s := a) (m := taken) steps still
        (Bool.eq_false_iff.2 fun o => isn't (heated.1 o))
  · intro measured checked
    have own : measured.head h = x.sampled (some seg) rc.params m three := State.head_modHead_same ..
    have heated : (measured.head h).overheats taken rc.params = true ↔ hot := by rw [own]; exact heat _
    have held : x.ctx.state.holdsJoint = true := by rw [running]; rfl
    have segment : a.segment h = some seg := by rw [State.segment, bound]; exact at_index
    have steps : measured = a.modHead h fun x => x.sampled (a.runningIn h) rc.params m three := by
      rw [show a.runningIn h = some seg from (if_pos running).trans segment]
    have own_c : checked.head h = (x.sampled (some seg) rc.params m three).checked m three := by
      simp only [checked, State.head_modHead_same, own]
    have temp_c : (checked.head h).hcu.filtered = x.tempAfter rc.params m := by rw [own_c]; rfl
    have off_c : (checked.head h).ctx.entryOffset = x.ctx.entryOffset := by rw [own_c]; rfl
    have cont_c : (checked.head h).ctx.contEntry = x.ctx.contEntry := by rw [own_c]; rfl
    have start_c : (checked.head h).ctx.segStart = x.ctx.segStart := by rw [own_c]; rfl
    have recipe_c : checked.recipe h = some rc := by rw [State.recipe, own_c]; exact bound
    have segment_c : checked.segment h = some seg := by rw [State.segment, recipe_c, own_c]; exact at_index
    have fine : ¬ hot → (measured.head h).overheats taken rc.params = false := fun isn't =>
      Bool.eq_false_iff.2 fun o => isn't (heated.1 o)
    have goes : ¬ hot → x.lowCount m ≠ 3 → run = .next (runSample taken rc.params checked) := fun isn't coupled =>
      (arrives held).trans (congrArg Host.Outcome.next
        ((processSample_of_running (s := a) (m := taken) steps running (fine isn't)).trans (if_neg coupled)))
    have exits : ∀ {w : State} {tf : Nat}, ¬ hot → x.lowCount m ≠ 3 → seg.isSoak = false →
        x.tempAfter rc.params m = some tf →
        (w = if taken.quality.usable then checked.modHead h fun x =>
          { x with hcu := x.hcu.steer rc.params seg x.ctx.rampOrigin (checked.since x.ctx.segStart) } else checked) →
        run = .next (if seg.exitsAt tf then exitSegment h w else w) := fun isn't coupled hurried tempered steered =>
      (goes isn't coupled).trans (congrArg Host.Outcome.next (runSample_of_tempered (m := taken) segment_c hurried
        (temp_c.trans tempered) steered))
    refine ⟨fun is => ⟨_, (arrives held).trans (congrArg Host.Outcome.next
        ((processSample_eq (s := a) (m := taken) steps).trans (if_pos ?_))), ?_⟩,
      fun isn't low => ⟨_, (arrives held).trans (congrArg Host.Outcome.next
        ((processSample_of_running (s := a) (m := taken) steps running (fine isn't)).trans (if_pos low))), ?_⟩,
      fun isn't coupled hurried blind => (goes isn't coupled).trans (congrArg Host.Outcome.next ?_),
      fun tf target rate reach limit ceiling isn't coupled tempered ramp => ?_,
      fun tf target limit isn't coupled tempered cool => ?_⟩
    · exact heated.2 is
    · exact takeFault_acts (.inl (by rw [own]; exact running)) _
    · exact takeFault_acts (.inl (by rw [own_c]; exact running)) _
    · exact runSample_of_blind (m := taken) segment_c (temp_c.trans blind)
        (not_usable_of_tempAfter (m := taken) (now := s.timebase) blind)
    · intro origin elapsed sp steered
      have placed : m.quality.usable = true → (checked.head h).ctx.rampOrigin = some origin := fun usable => by
        rw [own_c, ramp]; exact sampled_origin (cap := three) usable tempered ..
      have law := steered_ramp (m := taken) (p := rc.params) target rate reach limit ceiling (temp_c.trans tempered)
        placed
      rw [show (checked.head taken.head).ctx.segStart = x.ctx.segStart from start_c, ← ramp] at law
      have law := (ite_usable short checked (checked.modHcu h fun u => u.controlled rc.params sp tf ceiling)).trans law.symm
      have goes := exits isn't coupled (by rw [ramp]; rfl) tempered law
      refine ⟨fun short => goes.trans (congrArg Host.Outcome.next (if_neg ?_)),
        fun reached off cont => ⟨_, goes.trans (congrArg Host.Outcome.next (if_pos ?_)), ?_⟩⟩
      · rw [ramp]; simpa [Segment.exitsAt] using short
      · rw [ramp]; simpa [Segment.exitsAt] using reached
      · exact steered_exited (m := taken) law recipe_c (off_c.trans off) (cont_c.trans cont)
    · intro cooled
      have law : cooled = if taken.quality.usable then checked.modHead h fun x =>
          { x with hcu := x.hcu.steer rc.params seg x.ctx.rampOrigin (checked.since x.ctx.segStart) } else checked := by
        rw [cool]; exact ite_usable short checked (checked.modHcu h fun u => { u with setpoint := 0 })
      have goes := exits isn't coupled (by rw [cool]; rfl) tempered law
      refine ⟨fun warm => goes.trans (congrArg Host.Outcome.next (if_neg ?_)),
        fun reached off cont => ⟨_, goes.trans (congrArg Host.Outcome.next (if_pos ?_)), ?_⟩⟩
      · rw [cool]; simpa [Segment.exitsAt] using warm
      · rw [cool]; simpa [Segment.exitsAt] using reached
      · exact steered_exited (m := taken) law recipe_c (off_c.trans off) (cont_c.trans cont)

end Sys2Proof.Proofs
end

section
/-! PROOFS. Every command gives a next state and leaves the waiting commands (log 1, log 25). -/

namespace Sys2Proof.Machine

/-- The same clock is the same waiting commands. -/
theorem pending_of_clockPart {s t : State} (e : t.clockPart = s.clockPart) : t.pending = s.pending :=
  congrArg (fun clock => clock.2.2) e

/-- The three commands that change the clock leave the waiting commands too; every other keeps the whole clock. -/
theorem exec_keeps_pending (c : Instr) (s : State) : ∃ t, exec c s = .next t ∧ t.pending = s.pending := by
  have unclocked : ∀ c, c ≠ .timebaseTick → (∀ straps low, c ≠ .powerOnReset straps low) →
      (∀ f, c ≠ .rstNRelease f) → ∃ t, exec c s = .next t ∧ t.pending = s.pending := by
    intro c notTick notPowerOn notRelease
    obtain ⟨t, e, same⟩ := exec_keeps_clock s c notTick notPowerOn notRelease
    exact ⟨t, e, pending_of_clockPart same⟩
  cases c with
  | timebaseTick => refine ⟨_, rfl, ?_⟩; split <;> rfl
  | powerOnReset straps low => exact ⟨powerOn straps low s, rfl, rfl⟩
  | rstNRelease f => refine ⟨releaseRst f s, rfl, ?_⟩; unfold releaseRst; split <;> rfl
  | _ => exact unclocked _ nofun nofun nofun

end Sys2Proof.Machine

namespace Sys2Proof.Proofs

open Sys2Proof.Machine

/-- Settles O2: `exec_keeps_pending`, the frame lemma `exec_keeps_clock` and the three commands it leaves out. -/
theorem everyCommandCompletes : Obligations.EveryCommandCompletes := exec_keeps_pending

end Sys2Proof.Proofs
end

section
/-! PROOFS. The sequence check of a SAMPLE frame (R50-R53, R155). -/

namespace Sys2Proof.Machine

variable {s : State} {m : TakenSample}

/-! ### A head or quality out of range (R50, R178) -/

theorem qualityOf_of_out_of_range {q : Byte} (long : 3 ≤ q.toNat) : qualityOf q = none := by
  have ne : ∀ k : Byte, k.toNat < 3 → q ≠ k := fun k short e => by rw [e] at long; omega
  rw [qualityOf, if_neg (ne 0 (by decide)), if_neg (ne 1 (by decide)), if_neg (ne 2 (by decide))]

theorem readSample_of_out_of_range {hd q : Byte} (out : 16 ≤ hd.toNat ∨ 3 ≤ q.toNat) (seq fl : Byte)
    (tm cur : Word16) : readSample ([hd, seq] ++ enc16 tm ++ enc16 cur ++ [q, fl]) = none := by
  change readSample [hd, seq, byte tm.toNat, byte (tm.toNat / 256), byte cur.toNat, byte (cur.toNat / 256), q, fl] =
    none
  rw [readSample]
  split
  · next inside => rw [qualityOf_of_out_of_range (out.resolve_left (Nat.not_le.2 inside))]
  · rfl

/-! ### The check's verdicts (R51) -/

theorem seqCheck_of_behind {ref seq : Byte} (behind : 128 ≤ (seq - ref).toNat) :
    seqCheck (some ref) seq = .outOfOrder := by
  simp only [seqCheck]
  rw [if_neg (by omega), if_neg (by omega), if_neg (by omega)]

theorem seqCheck_of_gap {ref seq : Byte} (gap : 2 ≤ (seq - ref).toNat) (near : (seq - ref).toNat < 128) :
    seqCheck (some ref) seq = .gap := by
  simp only [seqCheck]
  rw [if_neg (by omega), if_neg (by omega), if_pos (by omega)]

/-- The reference's own number is counted DUPLICATE, and nothing else is done. -/
theorem sequenceSample_of_same (same : (s.head m.head).hcu.seqRef = some m.seq) :
    sequenceSample m s = s.countDev m.head .duplicate := by
  simp [sequenceSample, same, seqCheck]

/-- A number 128 or more after the reference is counted OUT_OF_ORDER, and nothing else is done. -/
theorem sequenceSample_of_behind {ref : Byte} (old : (s.head m.head).hcu.seqRef = some ref)
    (behind : 128 ≤ (m.seq - ref).toNat) : sequenceSample m s = s.countDev m.head .outOfOrder := by
  simp only [sequenceSample, old, seqCheck_of_behind behind]

/-! ### A sample of a head that holds no joint (R52, R53) -/

/-- Keeping a sample and counting its WEAK quality is one change of its head (R52). -/
theorem keepSample_counted (s : State) (m : TakenSample) :
    (if m.quality = .weak then (keepSample m s).countDev m.head .weak else keepSample m s) =
      s.modHead m.head fun x => x.kept m s.timebase := by
  rw [keepSample, State.modHcu]
  split
  · next weak =>
    rw [State.countDev, State.modHead_modHead]
    refine State.modHead_congr s m.head ?_
    simp only [Head.kept, if_pos weak]
    rfl
  · next strong =>
    refine State.modHead_congr s m.head (f' := fun x => x.kept m s.timebase) ?_
    simp only [Head.kept, if_neg strong]
    rfl

/-- An accepted sample of a head that holds no joint is kept, counted where WEAK, and nothing else (R52, R53). -/
theorem acceptSample_of_free (free : s.holds m.head = false) :
    acceptSample m s = s.modHead m.head fun x => x.kept m s.timebase := by
  have still : (s.modHead m.head fun x => x.kept m s.timebase).holds m.head = false := by
    rw [State.holds, State.head_modHead_same]; exact free
  unfold acceptSample
  dsimp only
  rw [keepSample_counted, still, if_neg Bool.false_ne_true]

/-- A sample in sequence of a head that holds no joint is kept, and its gap and WEAK quality counted (R51-R53). -/
theorem sequenceSample_of_free (free : s.holds m.head = false)
    (inSequence : (s.head m.head).hcu.seqRef = none ∨ ∃ ref, (s.head m.head).hcu.seqRef = some ref
      ∧ 1 ≤ (m.seq - ref).toNat ∧ (m.seq - ref).toNat < 128) :
    sequenceSample m s = s.modHead m.head fun x => x.keeping (m.keptAt s.timebase) := by
  have plain : (∀ r, (s.head m.head).hcu.seqRef = some r → (m.seq - r).toNat < 2) →
      acceptSample m s = s.modHead m.head fun x => x.keeping (m.keptAt s.timebase) := fun next => by
    rw [acceptSample_of_free free]
    refine State.modHead_congr s m.head ?_
    rw [Head.keeping, sampleCounts_of_next next]
    rfl
  rcases inSequence with fresh | ⟨ref, old, after, near⟩
  · rw [sequenceSample, fresh]
    exact plain fun r e => nomatch fresh.symm.trans e
  · rcases Nat.eq_or_lt_of_le after with next | gap
    · rw [sequenceSample, old, show seqCheck (some ref) m.seq = .accepted by simp [seqCheck, ← next]]
      refine plain fun r e => ?_
      obtain rfl := Option.some.inj (old.symm.trans e)
      omega
    · rw [sequenceSample, old, seqCheck_of_gap gap near]
      have free_c : (s.countDev m.head .sequenceGap).holds m.head = false := by
        rw [State.holds, State.countDev, State.head_modHead_same]; exact free
      refine (acceptSample_of_free free_c).trans ((State.modHead_modHead ..).trans (State.modHead_congr s m.head ?_))
      rw [Head.keeping, sampleCounts_of_gap (m := m.keptAt s.timebase) old gap]
      rfl

/-! ### The counters (R51, R52, R155) -/

/-- One counter counted, and the others as they were. -/
theorem getElem_set_count (v : Vector Nat 11) (i d : Fin 11) :
    (v.set i.val (min (v[i] + 1) 65535) i.isLt)[d] = if d = i then min (v[d] + 1) 65535 else v[d] := by
  by_cases e : d = i
  · subst e; simp
  · have ne : i.val ≠ d.val := fun same => e (Fin.ext same.symm)
    simp [e, Vector.getElem_set_ne, ne]

/-- A head's deviation counters with the gap of an accepted sample counted (R51). -/
def Head.gapCounts (x : Head) (m : Sample) : Vector Nat 11 :=
  match x.hcu.seqRef with
  | some ref =>
    if 2 ≤ (m.seq - ref).toNat then x.deviations.set 0 (min (x.deviations[0] + 1) 65535) else x.deviations
  | none => x.deviations

/-- The counters after an accepted sample: its gap counted, then its WEAK quality (R51, R52). -/
theorem sampleCounts_eq (x : Head) (m : Sample) : x.sampleCounts m =
    if m.quality = .weak then (x.gapCounts m).set 3 (min ((x.gapCounts m)[3] + 1) 65535) else x.gapCounts m := rfl

theorem gapCounts_getElem (x : Head) (m : Sample) (d : Fin 11) :
    (x.gapCounts m)[d] = if d = 0 ∧ ∃ ref, x.hcu.seqRef = some ref ∧ 2 ≤ (m.seq - ref).toNat
      then min (x.deviations[d] + 1) 65535 else x.deviations[d] := by
  cases old : x.hcu.seqRef with
  | none => simp [Head.gapCounts, old]
  | some ref =>
    simp only [Head.gapCounts, old, Option.some.injEq, exists_eq_left']
    by_cases gap : 2 ≤ (m.seq - ref).toNat
    · simp only [gap, and_true]
      exact getElem_set_count x.deviations 0 d
    · simp only [gap, and_false, if_false]

/-- An accepted sample counts its gap and its WEAK quality, and no other deviation. -/
theorem sampleCounts_getElem (x : Head) (m : Sample) (d : Fin 11) :
    (x.sampleCounts m)[d] =
      if (d = 0 ∧ ∃ ref, x.hcu.seqRef = some ref ∧ 2 ≤ (m.seq - ref).toNat) ∨ (d = 3 ∧ m.quality = .weak)
      then min (x.deviations[d] + 1) 65535 else x.deviations[d] := by
  rw [sampleCounts_eq]
  by_cases weak : m.quality = .weak
  · rw [if_pos weak]
    refine (getElem_set_count (x.gapCounts m) 3 d).trans ?_
    rw [gapCounts_getElem]
    by_cases third : d = 3
    · subst third; simp [weak]
    · simp [third]
  · rw [if_neg weak, gapCounts_getElem]; simp [weak]

end Sys2Proof.Machine

namespace Sys2Proof.Proofs

open Sys2Proof.Machine

/-- Settles O44: the frame is handed over by `exec_sampleFrame`; then the reading, or the verdict of the check. -/
theorem sequenceCheckOfSamples : Obligations.SequenceCheckOfSamples := by
  intro s e src seq tm cur q fl consumes
  have arrives := fun hd => exec_sampleFrame (e := e) consumes hd seq tm cur q fl
  refine ⟨fun hd out => ?_, fun h short => ?_⟩
  · rw [arrives, takeSample, readSample_of_out_of_range out]
  intro frame old
  let a : State := { s with engEn := e }
  let taken := takenOf h seq q fl tm cur
  have checks : exec (.frameArrival frame e) s = .next (sequenceSample taken a) := by
    rw [arrives, takeSample, readSample_eq short]
  refine ⟨fun same => ?_, fun ref was behind => ?_, fun free inSequence => ?_⟩
  · exact checks.trans (congrArg _ (sequenceSample_of_same (s := a) (m := taken) same))
  · exact checks.trans (congrArg _ (sequenceSample_of_behind (s := a) (m := taken) was behind))
  · refine ⟨(s.head h).sampleCounts (taken.keptAt s.timebase), fun d => ?_, ?_⟩
    · have weak : (taken.keptAt s.timebase).quality = .weak ↔ q = 1 := by
        change (if q = 0 then Quality.good else if q = 1 then .weak else .none) = .weak ↔ q = 1
        rcases quality_cases short with rfl | rfl | rfl <;> decide
      simp only [sampleCounts_getElem, weak]
      rfl
    · rw [checks, sequenceSample_of_free (s := a) (m := taken) free inSequence]
      exact congrArg _ (State.modHead_congr a h rfl)

end Sys2Proof.Proofs
end

section
/-! PROOFS. A sample of a head RUNNING in a SOAK: the control law at the SOAK's target, and the two bands (R54, R61-R64,
R70, R71, R97, R103, R104). -/

namespace Sys2Proof.Machine

variable {m : TakenSample} {p : Params}

/-! ### The two bands (R70, R71) -/

/-- Below the deficit band the request is pending or the head in service already, or it is raised, and counted where
the head is masked (R70, R97). -/
theorem soakTests_of_deficit {target tf : Nat} (deficit : tf + p.deficitBand < target) (h : HeadId) (s : State) :
    soakTests p target tf h s = s.modHead h fun y =>
      { y with
          rescueReq := y.rescueReq || !s.inRescue h,
          deviations :=
            if y.cfg.masked = true ∧ y.rescueReq = false ∧ s.inRescue h = false then
              y.deviations.set 5 (min (y.deviations[5] + 1) 65535)
            else y.deviations } := by
  rw [soakTests, if_pos deficit]
  by_cases going : ((s.head h).rescueReq || s.inRescue h) = true
  · rw [if_pos going]
    have still : ((s.head h).rescueReq || !s.inRescue h) = (s.head h).rescueReq := by
      rcases Bool.or_eq_true_iff.1 going with e | e <;> simp [e]
    have uncounted : ¬ ((s.head h).cfg.masked = true ∧ (s.head h).rescueReq = false ∧ s.inRescue h = false) :=
      fun ⟨_, unasked, unserved⟩ => by rw [unasked, unserved] at going; cases going
    refine (State.modHead_self s h).symm.trans (State.modHead_congr s h ?_)
    rw [still, if_neg uncounted]
  · rw [if_neg going, raiseRequest]
    obtain ⟨unasked, unserved⟩ := Bool.or_eq_false_iff.1 (Bool.eq_false_iff.2 going)
    split
    · next masked =>
      refine (State.modHead_modHead ..).trans (State.modHead_congr s h ?_)
      simp only [masked, unasked, unserved, and_self, if_true]
      rfl
    · next unmasked =>
      refine State.modHead_congr s h ?_
      rw [if_neg fun counted => unmasked counted.1, unasked, unserved]
      rfl

/-- Within the recover band the request is withdrawn and the head's rescue ends (R71, R103, R104). -/
theorem soakTests_of_recovered {target tf : Nat} (enough : ¬ tf + p.deficitBand < target)
    (recovered : target ≤ tf + p.recoverBand) (h : HeadId) (s : State) :
    soakTests p target tf h s = s.leaving h { s.head h with rescueReq := false } := by
  rw [soakTests, if_neg enough, if_pos recovered, dropRescue_eq_leaving]

/-- Between the bands a rescue goes on as it stands (R70, R71). -/
theorem soakTests_between {target tf : Nat} (enough : ¬ tf + p.deficitBand < target)
    (short : ¬ target ≤ tf + p.recoverBand) (h : HeadId) (s : State) : soakTests p target tf h s = s := by
  rw [soakTests, if_neg enough, if_neg short]

/-! ### The law, then the bands (R54) -/

/-- A head in a SOAK with a temperature runs the law at the target on a usable sample, then meets the two bands. -/
theorem runSample_of_soak {c : State} {target duration ceiling tf : Nat}
    (segment : c.segment m.head = some (.soak target duration ceiling))
    (tempered : (c.head m.head).hcu.filtered = some tf) :
    runSample m p c = soakTests p target tf m.head
      (if m.quality.usable then c.modHcu m.head fun u => u.controlled p target tf ceiling else c) := by
  have steered : (if m.quality.usable then c.modHead m.head fun x => { x with
        hcu := x.hcu.steer p (.soak target duration ceiling) x.ctx.rampOrigin (c.since x.ctx.segStart) } else c) =
      if m.quality.usable then c.modHcu m.head fun u => u.controlled p target tf ceiling else c := by
    split
    · refine State.modHead_congr c m.head ?_
      simp only [Hcu.steer, tempered, control_eq_controlled]
    · rfl
  have filtered : ((if m.quality.usable then c.modHcu m.head fun u => u.controlled p target tf ceiling
      else c).head m.head).hcu.filtered = some tf := by
    split
    · rw [State.modHcu, State.head_modHead_same]; exact tempered
    · exact tempered
  rw [runSample, segment]
  dsimp only
  rw [steered, filtered]

end Sys2Proof.Machine

namespace Sys2Proof.Proofs

open Sys2Proof.Machine

/-- Settles O46: the sample is processed by `processSample_of_running`; without a temperature nothing follows, with one
the law by `runSample_of_soak`, then the band the temperature lies in. -/
theorem soakSampleJudgesDeficit : Obligations.SoakSampleJudgesDeficit := by
  intro s e src seq q fl tm cur h p rc target duration ceiling consumes running profile recipe at_index accepts short
    x m three checked run coupled
  let a : State := { s with engEn := e }
  let taken := takenOf h seq q fl tm cur
  let seg : Segment := .soak target duration ceiling
  let measured := a.modHead h fun x => x.sampled (some seg) rc.params m three
  have bound : a.recipe h = some rc := by
    change (x.ctx.profile.bind fun p => (s.profile p).recipe) = some rc
    rw [profile]; exact recipe
  have held : s.holds h = true := by rw [State.holds, running]; rfl
  have segment : a.segment h = some seg := by rw [State.segment, bound]; exact at_index
  have steps : measured = a.modHead h fun x => x.sampled (a.runningIn h) rc.params m three := by
    rw [show a.runningIn h = some seg from (if_pos running).trans segment]
  have own_m : measured.head h = x.sampled (some seg) rc.params m three := State.head_modHead_same ..
  have checked_eq : (measured.modHead h fun y => y.checked m three) = checked := State.modHead_modHead ..
  have own : checked.head h = (x.sampled (some seg) rc.params m three).checked m three := State.head_modHead_same ..
  have temp_c : (checked.head h).hcu.filtered = x.tempAfter rc.params m := by rw [own]; rfl
  have recipe_c : checked.recipe h = some rc := by rw [State.recipe, own]; exact bound
  have segment_c : checked.segment h = some seg := by rw [State.segment, recipe_c, own]; exact at_index
  have goes : (∀ tf, x.tempAfter rc.params m = some tf → q = 2 ∨ tf ≤ rc.params.maxTemp) →
      run = .next (runSample taken rc.params checked) := fun cool => by
    have fine : (measured.head h).overheats taken rc.params = false := by
      refine Bool.eq_false_iff.2 fun hot => ?_
      rw [own_m] at hot
      obtain ⟨usable, tf, tempered, above⟩ :=
        (overheats_sampled_iff (m := taken) x (some seg) s.timebase three).1 hot
      exact (cool tf tempered).elim ((usable_iff short).1 usable) (Nat.not_le.2 above)
    refine (exec_sampleFrame_processes consumes accepts short bound held).trans (congrArg Host.Outcome.next ?_)
    refine (processSample_of_running (s := a) (m := taken) steps running fine).trans ((if_neg coupled).trans ?_)
    exact congrArg (runSample taken rc.params) checked_eq
  refine ⟨fun blind => (goes fun tf tempered => nomatch blind.symm.trans tempered).trans
    (congrArg Host.Outcome.next ?_), fun tf tempered cool => ?_⟩
  · exact runSample_of_blind (m := taken) segment_c (temp_c.trans blind)
      (not_usable_of_tempAfter (m := taken) (now := s.timebase) blind)
  intro steered deficit recovered
  have judged : run = .next (soakTests rc.params target tf h steered) := by
    refine (goes fun t same => ?_).trans (congrArg Host.Outcome.next ?_)
    · obtain rfl := Option.some.inj (tempered.symm.trans same)
      exact cool
    · exact (runSample_of_soak (m := taken) segment_c (temp_c.trans tempered)).trans
        (congrArg (soakTests rc.params target tf h) (ite_usable short ..).symm)
  refine ⟨fun low => judged.trans (congrArg Host.Outcome.next ?_),
    fun enough near => judged.trans (congrArg Host.Outcome.next (soakTests_of_recovered enough near h steered)),
    fun enough far => judged.trans (congrArg Host.Outcome.next (soakTests_between enough far h steered))⟩
  rw [soakTests_of_deficit low]
  have kept : (steered.head h).cfg = x.cfg ∧ (steered.head h).rescueReq = x.rescueReq := by
    simp only [steered]
    split
    · rw [own]; exact ⟨rfl, rfl⟩
    · rw [State.modHcu, State.head_modHead_same, own]; exact ⟨rfl, rfl⟩
  have service : steered.inRescue h = s.inRescue h := by
    simp only [steered]; split <;> rfl
  refine State.modHead_congr steered h ?_
  simp only [kept, service]

end Sys2Proof.Proofs
end

section
/-! PROOFS. The bounds of the queues, the drive histories and the counters, and what each operation, event and command
behind them does to these bounds (R91, R92, R126, R155, R182-R185, R188). -/

namespace Sys2Proof.Machine

variable {s t u : State} {n : Nat}

/-! ### The Ring Port's bounds -/

/-- The bounds of the Ring Port, with at most `n` replies waiting: one drive place per generator, a free port only
where nothing waits, and counters of 16 bits. -/
structure RingPort.Bounded (n : Nat) (rp : RingPort) : Prop where
  drive : (rp.drive.map Prod.fst).Nodup
  forward : rp.forward.length ≤ 24
  replies : rp.replies.length ≤ n
  notices : rp.notices.length ≤ 16
  free : rp.port = none → rp.drive = [] ∧ rp.forward = [] ∧ rp.replies = [] ∧ rp.notices = []
  counters : ∀ c : Fin 9, rp.counters[c] ≤ 65535

theorem count16_le (n : Nat) : count16 n ≤ 65535 := Nat.min_le_right ..

/-- A vector of counters after one count holds the old counters or the counted one. -/
theorem getElem_set_count16_le {m : Nat} {v : Vector Nat m} (old : ∀ i : Fin m, v[i] ≤ 65535) (k i : Fin m) :
    (v.set k.val (count16 v[k]) k.isLt)[i] ≤ 65535 := by
  have set := Vector.getElem_set (xs := v) (x := count16 v[k]) k.isLt i.isLt
  refine set.le.trans ?_
  split
  · exact count16_le _
  · exact old i

section
variable {rp : RingPort}

theorem RingPort.Bounded.count (b : rp.Bounded n) (c : PortCounter) : (rp.count c).Bounded n :=
  ⟨b.drive, b.forward, b.replies, b.notices, b.free, getElem_set_count16_le b.counters c.idx⟩

theorem RingPort.Bounded.placeNotice (b : rp.Bounded n) (f : TxFrame) : (rp.placeNotice f).Bounded n := by
  unfold RingPort.placeNotice
  split
  · exact b.count _
  next room =>
  split
  · exact ⟨b.drive, b.forward, b.replies, b.notices, nofun, b.counters⟩
  next busy =>
  refine ⟨b.drive, b.forward, b.replies, ?_, fun free => ?_, b.counters⟩
  · rw [List.length_append, List.length_singleton]; omega
  · exact absurd (by rw [free, (b.free free).2.2.2]; rfl) busy

theorem RingPort.Bounded.placeForward (b : rp.Bounded n) (bytes : List Byte) : (rp.placeForward bytes).Bounded n := by
  unfold RingPort.placeForward
  split
  · exact b.count _
  next room =>
  split
  · exact ⟨b.drive, b.forward, b.replies, b.notices, nofun, b.counters⟩
  next busy =>
  refine ⟨b.drive, ?_, b.replies, b.notices, fun free => ?_, b.counters⟩
  · rw [List.length_append, List.length_singleton]; omega
  · exact absurd (by rw [free, (b.free free).2.1]; rfl) busy

theorem RingPort.Bounded.placeReply (b : rp.Bounded n) (f : TxFrame) : (rp.placeReply f).Bounded (n + 1) := by
  unfold RingPort.placeReply
  split
  · exact ⟨b.drive, b.forward, Nat.le_succ_of_le b.replies, b.notices, nofun, b.counters⟩
  next busy =>
  refine ⟨b.drive, b.forward, ?_, b.notices, fun free => ?_, b.counters⟩
  · rw [List.length_append, List.length_singleton]; exact Nat.succ_le_succ b.replies
  · exact absurd (by rw [free, (b.free free).2.2.1]; rfl) busy

/-- A DRIVE frame replaces the one in its generator's place or fills a place of its own (R92). -/
theorem RingPort.Bounded.placeDrive (b : rp.Bounded n) (g : GenId) (f : TxFrame) : (rp.placeDrive g f).Bounded n := by
  unfold RingPort.placeDrive
  split
  next taken =>
    refine RingPort.Bounded.count (rp := { rp with drive := rp.drive.map fun p => if p.1 == g then (g, f) else p })
      ⟨?_, b.forward, b.replies, b.notices, fun free => ?_, b.counters⟩ _
    · have places : (rp.drive.map fun p => if p.1 == g then (g, f) else p).map Prod.fst = rp.drive.map Prod.fst := by
        rw [List.map_map]
        refine List.map_congr_left fun p _ => ?_
        by_cases own : p.1 = g <;> simp [own]
      rw [places]; exact b.drive
    · rw [(b.free free).1] at taken; cases taken
  next fresh =>
  split
  · exact ⟨b.drive, b.forward, b.replies, b.notices, nofun, b.counters⟩
  next busy =>
  refine ⟨?_, b.forward, b.replies, b.notices, fun free => ?_, b.counters⟩
  · rw [List.map_append, List.nodup_append]
    refine ⟨b.drive, List.nodup_singleton _, fun k old j new same => fresh ?_⟩
    obtain ⟨p, mem, rfl⟩ := List.mem_map.1 old
    exact List.any_eq_true.2 ⟨p, mem, by simpa using same.trans (List.mem_singleton.1 new)⟩
  · exact absurd (by rw [free, (b.free free).1]; rfl) busy

/-- A frame that leaves makes room; the port is free only where all queues are empty (R185). -/
theorem RingPort.Bounded.beginNext (b : rp.Bounded n) :
    rp.beginNext.Bounded n ∧ (rp.nextIsReply = true → rp.beginNext.Bounded (n - 1)) := by
  obtain ⟨drive, forward, replies, notices, free, counters⟩ := b
  unfold RingPort.beginNext
  split
  case h_1 e =>
    rw [e] at drive
    refine ⟨⟨(List.nodup_cons.1 drive).2, forward, replies, notices, nofun, counters⟩, fun next => ?_⟩
    simp [RingPort.nextIsReply, e] at next
  case h_2 e₁ e₂ =>
    rw [e₂] at forward
    refine ⟨⟨drive, Nat.le_of_succ_le forward, replies, notices, nofun, counters⟩, fun next => ?_⟩
    simp [RingPort.nextIsReply, e₂] at next
  case h_3 e₁ e₂ e₃ =>
    rw [e₃, List.length_cons] at replies
    exact ⟨⟨drive, forward, Nat.le_of_succ_le replies, notices, nofun, counters⟩,
      fun _ => ⟨drive, forward, Nat.le_sub_one_of_lt replies, notices, nofun, counters⟩⟩
  case h_4 e₁ e₂ e₃ e₄ =>
    rw [e₄] at notices
    refine ⟨⟨drive, forward, replies, Nat.le_of_succ_le notices, nofun, counters⟩, fun next => ?_⟩
    simp [RingPort.nextIsReply, e₃] at next
  case h_5 e₁ e₂ e₃ e₄ =>
    refine ⟨⟨drive, forward, replies, notices, fun _ => ⟨e₁, e₂, e₃, e₄⟩, counters⟩, fun next => ?_⟩
    simp [RingPort.nextIsReply, e₃] at next

end

/-! ### The part's bounds -/

/-- The bounds of the whole part, with at most `n` replies waiting. -/
structure State.Bounded (n : Nat) (s : State) : Prop where
  ring : s.rp.Bounded n
  requests : s.mu.requests.length ≤ 4
  histories : ∀ g, (s.gen g).history.length ≤ 4
  timeouts : s.interlocks.timeouts ≤ 65535
  deviations : ∀ h, ∀ d : Fin 11, (s.head h).deviations[d] ≤ 65535

/-- The bounds with 4 replies are the laws of queues and counters. -/
theorem bounded_iff : s.Bounded 4 ↔ s.QueuesLegal ∧ s.CountersLegal := by
  constructor
  · rintro ⟨⟨drive, forward, replies, notices, free, counters⟩, requests, histories, timeouts, deviations⟩
    exact ⟨⟨drive, forward, replies, notices, requests, histories .a, histories .b, free⟩,
      counters, timeouts, deviations⟩
  · rintro ⟨⟨drive, forward, replies, notices, requests, a, b, free⟩, counters, timeouts, deviations⟩
    exact ⟨⟨drive, forward, replies, notices, free, counters⟩, requests, fun g => by cases g <;> assumption, timeouts,
      deviations⟩

/-- What these bounds speak of: the Ring Port, the waiting requests, the drive histories, the timeouts of the
interlock frame timer and the deviation counters. -/
def State.books (s : State) : RingPort × List Request × (GenId → List DriveEntry) × Nat × (HeadId → Vector Nat 11) :=
  (s.rp, s.mu.requests, fun g => (s.gen g).history, s.interlocks.timeouts, fun h => (s.head h).deviations)

theorem books_eq_iff : t.books = s.books ↔ t.rp = s.rp ∧ t.mu.requests = s.mu.requests
    ∧ (∀ g, (t.gen g).history = (s.gen g).history) ∧ t.interlocks.timeouts = s.interlocks.timeouts
    ∧ ∀ h, (t.head h).deviations = (s.head h).deviations := by
  simp only [State.books, Prod.mk.injEq, funext_iff]

theorem State.Bounded.congr (b : s.Bounded n) (e : t.books = s.books) : t.Bounded n := by
  obtain ⟨rp, requests, histories, timeouts, deviations⟩ := books_eq_iff.1 e
  refine ⟨by rw [rp]; exact b.ring, by rw [requests]; exact b.requests, fun g => ?_, by rw [timeouts]; exact b.timeouts,
    fun h => ?_⟩
  · rw [histories]; exact b.histories g
  · rw [deviations]; exact b.deviations h

theorem State.Bounded.withInterlocks (b : s.Bounded n) {i : Interlocks} (timeouts : i.timeouts ≤ 65535) :
    ({ s with interlocks := i } : State).Bounded n :=
  ⟨b.ring, b.requests, fun g => by cases g; exacts [b.histories .a, b.histories .b], timeouts, b.deviations⟩

/-! ### What leaves the books as they are -/

/-- A head's change outside its deviation counters. -/
theorem books_modHead {f : Head → Head} (h : HeadId) (e : ∀ x, (f x).deviations = x.deviations) :
    (s.modHead h f).books = s.books := by
  refine books_eq_iff.2 ⟨rfl, rfl, fun g => by rw [State.gen_modHead], rfl, fun k => ?_⟩
  by_cases n : k = h
  · subst n; rw [State.head_modHead_same, e]
  · rw [State.head_modHead_other _ _ n]

theorem books_modAllHeads {f : HeadId → Head → Head} (e : ∀ h x, (f h x).deviations = x.deviations) :
    (s.modAllHeads f).books = s.books :=
  books_eq_iff.2 ⟨rfl, rfl, fun g => by rw [State.gen_modAllHeads], rfl, fun k => by rw [State.head_modAllHeads, e]⟩

/-- A generator's change outside its drive history. -/
theorem books_modGen {f : Generator → Generator} (g : GenId) (e : ∀ x, (f x).history = x.history) :
    (s.modGen g f).books = s.books := by
  refine books_eq_iff.2 ⟨by simp, by simp, fun k => ?_, by simp, fun h => by rw [State.head_modGen]⟩
  by_cases n : k = g
  · subst n; rw [State.gen_modGen_same, e]
  · rw [State.gen_modGen_other _ _ n]

section
variable (s)

@[simp] theorem books_modCtx (h : HeadId) (f : HeadContext → HeadContext) : (s.modCtx h f).books = s.books :=
  books_modHead h fun _ => rfl

@[simp] theorem books_recordKind (h : HeadId) (k : FaultKind) : (recordKind h k s).books = s.books :=
  books_modHead h fun _ => rfl

@[simp] theorem books_takeCapture (h : HeadId) (k : FaultKind) (a : FaultAction) :
    (takeCapture h k a s).books = s.books := books_modHead h fun _ => rfl

@[simp] theorem books_endRescue (g : GenId) : (endRescue g s).books = s.books := by
  unfold endRescue
  split
  · rfl
  · exact books_modGen g fun _ => rfl

@[simp] theorem books_dropRescue (h : HeadId) : (dropRescue h s).books = s.books := by
  have ends : ∀ (g : GenId) (t : State) (c : Prop) [Decidable c], (if c then endRescue g t else t).books = t.books := by
    intro g t c _
    split
    · exact books_endRescue t g
    · rfl
  unfold dropRescue endRescueOf
  exact (ends .b ..).trans ((ends .a ..).trans (books_modHead h fun _ => rfl))

@[simp] theorem books_startIdleIfUnheld (g : GenId) : (startIdleIfUnheld g s).books = s.books := by
  rw [startIdleIfUnheld_spec]
  exact books_modGen g fun x => by split <;> rfl

@[simp] theorem books_releaseGenerator (h : HeadId) : (releaseGenerator h s).books = s.books := by
  unfold releaseGenerator
  split
  · rfl
  · exact books_startIdleIfUnheld ..

@[simp] theorem books_suspend (c : SuspendCause) (h : HeadId) : (suspend c h s).books = s.books :=
  (books_dropRescue ..).trans (books_modHead h fun _ => rfl)

end

/-! ### Keeping the bounds -/

/-- From `s` to `t` every bound is kept, however many replies may wait. -/
structure BoundsKept (s t : State) : Prop where
  bounded : ∀ n, s.Bounded n → t.Bounded n

theorem BoundsKept.refl (s : State) : BoundsKept s s := ⟨fun _ b => b⟩

theorem BoundsKept.trans (a : BoundsKept s t) (b : BoundsKept t u) : BoundsKept s u :=
  ⟨fun n x => b.bounded n (a.bounded n x)⟩

theorem BoundsKept.quiet (e : t.books = s.books) : BoundsKept s t := ⟨fun _ b => b.congr e⟩

/-- The later part of an event, after the earlier one. -/
theorem BoundsKept.after (b : BoundsKept t u) (a : BoundsKept s t) : BoundsKept s u := a.trans b

theorem BoundsKept.modHead {h : HeadId} {f : Head → Head} (e : ∀ x, (f x).deviations = x.deviations) :
    BoundsKept s (s.modHead h f) := .quiet (books_modHead h e)

theorem BoundsKept.modGen {g : GenId} {f : Generator → Generator} (e : ∀ x, (f x).history = x.history) :
    BoundsKept s (s.modGen g f) := .quiet (books_modGen g e)

/-- What stands after the books' last change plays no part. -/
theorem BoundsKept.then (a : BoundsKept s t) (e : u.books = t.books) : BoundsKept s u := a.trans (.quiet e)

/-- Events one after the other. -/
theorem BoundsKept.foldl {α : Type} {f : State → α → State} (each : ∀ s a, BoundsKept s (f s a)) (l : List α)
    (s : State) : BoundsKept s (l.foldl f s) := by
  induction l generalizing s with
  | nil => exact .refl s
  | cons a l ih => exact (each s a).trans (ih _)

/-- A change of the Ring Port that keeps its bounds. -/
theorem modRp_kept {f : RingPort → RingPort} (e : ∀ n, s.rp.Bounded n → (f s.rp).Bounded n) :
    BoundsKept s (s.modRp f) :=
  ⟨fun n b =>
    ⟨e n b.ring, b.requests, fun g => by rw [State.gen_modRp]; exact b.histories g, b.timeouts, b.deviations⟩⟩

theorem countPort_kept (c : PortCounter) (s : State) : BoundsKept s (s.countPort c) := modRp_kept fun _ b => b.count c

theorem notice_kept (p : List Byte) (s : State) : BoundsKept s (s.notice p) := by
  unfold State.notice
  split
  · exact .refl s
  · exact modRp_kept fun _ b => b.placeNotice _

theorem countDev_kept (h : HeadId) (d : Deviation) (s : State) : BoundsKept s (s.countDev h d) := by
  refine ⟨fun n b => ⟨b.ring, b.requests, b.histories, b.timeouts, fun k => ?_⟩⟩
  by_cases same : k = h
  · subst same
    rw [State.countDev_eq, State.head_modHead_same]
    exact getElem_set_count16_le (b.deviations k) d.idx
  · rw [State.countDev_eq, State.head_modHead_other _ _ same]
    exact b.deviations k

/-! ### Joints, faults and segments -/

theorem finishJoint_kept (o : JointOutcome) (f : Option (List Criterion)) (k : Option FaultKind) (h : HeadId)
    (s : State) : BoundsKept s (finishJoint o f k h s) := by
  unfold finishJoint
  refine (BoundsKept.quiet (books_releaseGenerator ..)).after ((notice_kept ..).after (.after (.modHead fun _ => rfl) ?_))
  exact .quiet ((books_dropRescue ..).trans (books_modHead h fun _ => rfl))

theorem takeFault_kept (h : HeadId) (k : FaultKind) (s : State) : BoundsKept s (takeFault h k s) := by
  have act : ∀ (t : State) (a : FaultAction), BoundsKept t (applyAction h k a t) := by
    intro t a
    rcases applyAction_cases t h k a with ⟨-, e⟩ | ⟨-, e⟩ | ⟨-, e⟩ <;> rw [e]
    · exact finishJoint_kept ..
    · exact .quiet ((books_suspend ..).trans (books_modCtx ..))
    · exact .refl t
  unfold takeFault
  dsimp only
  split
  · refine .trans ?_ (act ..)
    have captured : ∀ (c : Prop) [Decidable c] (a : FaultAction), BoundsKept s
        (if c then takeCapture h k a (recordKind h k s) else recordKind h k s) := by
      intro c _ a
      split
      · exact .quiet ((books_takeCapture ..).trans (books_recordKind ..))
      · exact .quiet (books_recordKind ..)
    split
    · exact captured ..
    · exact (notice_kept ..).after (captured ..)
  · exact .quiet (books_recordKind ..)

theorem entryTest_kept (h : HeadId) (s : State) : BoundsKept s (entryTest h s) := by
  unfold entryTest
  split
  · exact takeFault_kept ..
  split
  · exact .refl s
  · exact takeFault_kept ..

theorem enterSegment_kept (h : HeadId) (s : State) : BoundsKept s (enterSegment h s) := by
  cases e : s.segment h with
  | none => rw [enterSegment, e]; exact .refl s
  | some seg =>
    have entered : (s.modHead h fun x => x.enter seg s.timebase s.threeSlots).books = s.books :=
      books_modHead h fun _ => rfl
    have left : BoundsKept s (if seg.isSoak then s.modHead h fun x => x.enter seg s.timebase s.threeSlots
        else dropRescue h (s.modHead h fun x => x.enter seg s.timebase s.threeSlots)) := by
      split
      · exact .quiet entered
      · exact .quiet ((books_dropRescue ..).trans entered)
    rw [enterSegment_eq s e]
    dsimp only
    split
    · exact left.trans (entryTest_kept ..)
    · exact left

theorem exitSegment_kept (h : HeadId) (s : State) : BoundsKept s (exitSegment h s) := by
  have left : BoundsKept s (leaveSegment h s) := .quiet ((books_dropRescue ..).trans (books_modCtx ..))
  have ends : ∀ l : List Criterion, BoundsKept (leaveSegment h s)
      (if l = [] then finishJoint .accept none none h (leaveSegment h s)
        else finishJoint .reject (some l) none h (leaveSegment h s)) := by
    intro l; split <;> exact finishJoint_kept ..
  rcases exitSegment_cases h s with ⟨rc, -, -, e⟩ | ⟨-, e⟩ <;> rw [e]
  · exact (left.then (books_modCtx ..)).trans (enterSegment_kept ..)
  · exact left.trans (ends _)

theorem enterJoint_kept (h : HeadId) (s : State) : BoundsKept s (enterJoint h s) := by
  have waits : (s.modCtx h fun c => { c with state := .waitGen }).books = s.books := books_modCtx ..
  unfold enterJoint wakeGenerator
  dsimp only
  split
  · exact .quiet waits
  split
  · exact (enterSegment_kept ..).after (.modGen fun _ => rfl)
  · exact .quiet waits
  · exact .quiet waits
  · exact (notice_kept ..).after (.after (.modGen fun _ => rfl) (.quiet waits))
  · exact (BoundsKept.quiet waits).trans (takeFault_kept ..)

/-! ### Generators (chapter 6) -/

theorem faultGenerator_kept (g : GenId) (cause : GenCause) (s : State) : BoundsKept s (faultGenerator g cause s) := by
  unfold faultGenerator
  refine .after (.foldl (fun t h => ?_) _ _) ((notice_kept ..).after
    ((BoundsKept.quiet (books_endRescue ..)).after (.modGen fun _ => rfl)))
  unfold faultHeadOf
  dsimp only
  split
  · exact takeFault_kept ..
  · exact .refl t

theorem readyGenerator_kept (g : GenId) (s : State) : BoundsKept s (readyGenerator g s) := by
  unfold readyGenerator
  refine (notice_kept ..).after ((BoundsKept.quiet (books_startIdleIfUnheld ..)).after
    (.after (.foldl (fun t h => ?_) _ _) (.modGen fun _ => rfl)))
  unfold releaseWaiting
  dsimp only
  split
  · exact enterSegment_kept ..
  · exact .refl t

theorem takeGenstat_kept (p : List Byte) (s : State) : BoundsKept s (takeGenstat p s) := by
  have credit : ∀ m t, BoundsKept t (creditEnergy m t) := by
    intro m t
    rcases creditEnergy_cases t m with e | ⟨h, d, -, -, e⟩ | ⟨h, x, -, -, -, -, e⟩ <;> rw [e]
    · exact .refl t
    · exact countDev_kept ..
    · exact .quiet (books_modCtx ..)
  have act : ∀ g r t, BoundsKept t (applyReport g r t) := by
    intro g r t
    rcases applyReport_cases t g r with ⟨-, -, -, e⟩ | ⟨-, -, e⟩ | ⟨-, -, e⟩ | e <;> rw [e]
    · exact faultGenerator_kept ..
    · exact readyGenerator_kept ..
    · exact faultGenerator_kept ..
    · exact .refl t
  unfold takeGenstat
  split
  · exact countPort_kept ..
  split
  · exact .refl s
  · exact (act ..).after ((credit ..).after (.modGen fun _ => rfl))

theorem wakeExpiry_kept (g : GenId) (s : State) : BoundsKept s (wakeExpiry g s) := by
  unfold wakeExpiry; split
  · exact faultGenerator_kept ..
  · exact .refl s

theorem statusExpiry_kept (g : GenId) (s : State) : BoundsKept s (statusExpiry g s) := by
  unfold statusExpiry; split
  · exact faultGenerator_kept ..
  · exact .refl s

theorem idleExpiry_kept (g : GenId) (s : State) : BoundsKept s (idleExpiry g s) := by
  unfold idleExpiry; split
  · exact (notice_kept ..).after (.modGen fun _ => rfl)
  · exact .refl s

theorem rescueLimitExpiry_kept (g : GenId) (s : State) : BoundsKept s (rescueLimitExpiry g s) := by
  unfold rescueLimitExpiry
  split
  · split
    · exact .modGen fun _ => rfl
    · exact (BoundsKept.quiet (books_endRescue ..)).trans (takeFault_kept ..)
  · exact .refl s

/-! ### The timers of heads (R30, R31, R33, R44) -/

theorem segmentExpiry_kept (h : HeadId) (s : State) : BoundsKept s (segmentExpiry h s) := by
  unfold segmentExpiry
  split
  · split
    · exact .refl s
    · exact takeFault_kept ..
    · exact exitSegment_kept ..
    · exact (BoundsKept.quiet (books_modCtx ..)).trans (exitSegment_kept ..)
  · exact .refl s

theorem sampleExpiry_kept (h : HeadId) (s : State) : BoundsKept s (sampleExpiry h s) := by
  unfold sampleExpiry; split
  · exact takeFault_kept ..
  · exact .refl s

theorem windowExpiry_kept (h : HeadId) (s : State) : BoundsKept s (windowExpiry h s) := by
  unfold windowExpiry; split
  · exact takeFault_kept ..
  · exact .refl s

/-! ### Samples (chapter 3) -/

theorem soakTests_kept (p : Params) (target tf : Nat) (h : HeadId) (s : State) :
    BoundsKept s (soakTests p target tf h s) := by
  unfold soakTests raiseRequest
  split
  · split
    · exact .refl s
    have raised : (s.modHead h fun x => { x with rescueReq := true }).books = s.books := books_modHead h fun _ => rfl
    dsimp only
    split
    · exact (BoundsKept.quiet raised).trans (countDev_kept ..)
    · exact .quiet raised
  split
  · exact .quiet (books_dropRescue ..)
  · exact .refl s

theorem runSample_kept (m : TakenSample) (p : Params) (s : State) : BoundsKept s (runSample m p s) := by
  unfold runSample
  split
  · exact .refl s
  next seg _ =>
  have steers : ∀ (c : Prop) [Decidable c], BoundsKept s (if c then s.modHead m.head fun x =>
      { x with hcu := x.hcu.steer p seg x.ctx.rampOrigin (s.since x.ctx.segStart) } else s) := by
    intro c _
    split
    · exact .modHead fun _ => rfl
    · exact .refl s
  refine .trans (steers (m.quality.usable = true)) ?_
  dsimp only
  generalize (if m.quality.usable = true then s.modHead m.head fun x =>
    { x with hcu := x.hcu.steer p seg x.ctx.rampOrigin (s.since x.ctx.segStart) } else s) = v
  split
  · exact .refl _
  split
  · exact soakTests_kept ..
  split
  · exact exitSegment_kept ..
  · exact .refl _

theorem processSample_kept (m : TakenSample) (p : Params) (s : State) : BoundsKept s (processSample m p s) := by
  unfold processSample
  dsimp only
  split
  · exact (takeFault_kept ..).after (.modHead fun _ => rfl)
  have coupled : BoundsKept s (((s.modHead m.head fun x =>
      x.measured m p (s.inRamp m.head) s.timebase s.threeSlots)).modHead m.head fun x => x.coupled m s.threeSlots) :=
    .after (.modHead fun _ => rfl) (.modHead fun _ => rfl)
  refine coupled.trans ?_
  split
  · split
    · exact takeFault_kept ..
    · exact runSample_kept ..
  · exact .refl _

theorem acceptSample_kept (m : TakenSample) (s : State) : BoundsKept s (acceptSample m s) := by
  have keeps : BoundsKept s (keepSample m s) := by
    unfold keepSample State.modHcu
    exact .modHead fun _ => rfl
  have counts : BoundsKept s (if m.quality = .weak then (keepSample m s).countDev m.head .weak else keepSample m s) := by
    split
    · exact keeps.trans (countDev_kept ..)
    · exact keeps
  unfold acceptSample
  refine counts.trans ?_
  dsimp only
  generalize (if m.quality = .weak then (keepSample m s).countDev m.head .weak else keepSample m s) = v
  split
  · split
    · exact .refl v
    · exact processSample_kept ..
  · exact .refl v

theorem takeSample_kept (p : List Byte) (s : State) : BoundsKept s (takeSample p s) := by
  unfold takeSample
  split
  · exact countPort_kept ..
  unfold sequenceSample
  split
  · exact countDev_kept ..
  · exact countDev_kept ..
  · exact (countDev_kept ..).trans (acceptSample_kept ..)
  · exact acceptSample_kept ..

/-! ### Interlocks (chapter 7) -/

theorem releaseEarly_kept (h : HeadId) (s : State) : BoundsKept s (releaseEarly h s) :=
  (BoundsKept.quiet (books_modCtx ..)).trans (countDev_kept ..)

theorem interlockLoss_kept (released : Bool) (h : HeadId) (s : State) : BoundsKept s (interlockLoss released h s) := by
  unfold interlockLoss
  split
  · split
    · split
      · exact .refl s
      · exact releaseEarly_kept ..
    · exact takeFault_kept ..
  · exact takeFault_kept ..
  · exact takeFault_kept ..
  all_goals exact .refl s

theorem coolantLossHead_kept (s : State) (h : HeadId) : BoundsKept s (coolantLossHead s h) := by
  unfold coolantLossHead
  split
  · split
    · exact releaseEarly_kept ..
    · exact takeFault_kept ..
  · exact takeFault_kept ..
  · exact takeFault_kept ..
  all_goals exact .refl s

theorem coolantLoss_kept (g : GroupId) (s : State) : BoundsKept s (coolantLoss g s) := by
  have latched : BoundsKept s (s.modGroup g fun x => { x with latch := true }) := .quiet rfl
  unfold coolantLoss
  refine .trans ?_ (.foldl coolantLossHead_kept _ _)
  split
  · exact latched.trans (notice_kept ..)
  · exact latched

theorem actOnLosses_kept (s0 : State) (lost : GroupId → Bool) (s : State) : BoundsKept s (actOnLosses s0 lost s) := by
  unfold actOnLosses
  refine .trans (.foldl (fun t g => ?_) _ _) (.foldl (fun t h => ?_) _ _)
  · split
    · exact coolantLoss_kept ..
    · exact .refl t
  · split
    · exact interlockLoss_kept ..
    · exact .refl t

theorem takeInterlock_kept (p : List Byte) (s : State) : BoundsKept s (takeInterlock p s) := by
  unfold takeInterlock
  split
  · exact .refl s
  next m _ =>
  unfold takeInterlockFrame
  refine (actOnLosses_kept ..).after (.quiet ?_)
  have shown : ∀ t : State, (t.modAllHeads fun h x => x.showInputs m h).books = t.books :=
    fun t => books_modAllHeads fun _ _ => rfl
  exact (shown { s with interlocks := { s.interlocks with frameTimer := some s.mu.config.interlockTimeout } }).trans rfl

/-- The frame timer's timeout is counted within 16 bits (R126, R129). -/
theorem interlockExpiry_kept (s : State) : BoundsKept s (interlockExpiry s) := by
  unfold interlockExpiry
  split
  · dsimp only
    refine (actOnLosses_kept ..).after ⟨fun n b => ?_⟩
    have dropped : (s.modAllHeads fun _ x => { x with inputs := x.inputs.drop }).books = s.books :=
      books_modAllHeads fun _ _ => rfl
    exact (b.congr dropped).withInterlocks (count16_le _)
  · exact .refl s

/-! ### The slot expiry (R74) -/

theorem grantRescue_kept (g : GenId) (h : HeadId) (s : State) : BoundsKept s (grantRescue g h s) := by
  unfold grantRescue
  dsimp only
  exact (countDev_kept ..).after (.after (.modGen fun _ => rfl) (.modHead fun _ => rfl))

theorem serveGenerator_kept (g : GenId) (other : Option HeadId) (s : State) :
    BoundsKept s (serveGenerator g other s).1 := by
  have resolved : BoundsKept s (resolveRescue g s) := by
    rcases resolveRescue_cases g s with e | ⟨w, -, -, e⟩ | ⟨k, w, -, -, -, e⟩ <;> rw [e]
    · exact .refl s
    · exact grantRescue_kept ..
    · unfold preempt
      dsimp only
      exact (grantRescue_kept ..).after (.after (.modHead fun _ => rfl) (.modGen fun _ => rfl))
  refine resolved.trans ?_
  change BoundsKept _ (countBorrowed _ (resolveRescue g s))
  unfold countBorrowed
  split
  · exact countDev_kept ..
  · exact .refl _

/-- A POWER frame enters a history that keeps its last four entries (R91). -/
theorem powerEffects_kept (g : GenId) (h : HeadId) (s : State) : BoundsKept s (powerEffects g h s) := by
  have derated : BoundsKept s (if s.budgetLimits g h then
      (s.modCtx h fun c => { c with derated := true }).countDev h .derated else s) := by
    split
    · exact (BoundsKept.quiet (books_modCtx ..)).trans (countDev_kept ..)
    · exact .refl s
  have history : ∀ (t : State) (e : DriveEntry),
      BoundsKept t (t.modGen g fun x => { x with history := appendHistory x.history e }) := by
    refine fun t e => ⟨fun n b => ?_⟩
    refine ⟨by simpa using b.ring, by simpa using b.requests, fun k => ?_, by simpa using b.timeouts, fun h => ?_⟩
    · by_cases same : k = g
      · subst same; rw [State.gen_modGen_same]; exact appendHistory_length ..
      · rw [State.gen_modGen_other _ _ same]; exact b.histories k
    · rw [State.head_modGen]; exact b.deviations h
  unfold powerEffects
  dsimp only
  refine .trans ?_ (history ..)
  split
  · exact derated.then (books_modCtx ..)
  · exact derated

theorem buildDrive_kept (g : GenId) (served : Option HeadId) (s : State) : BoundsKept s (buildDrive g served s) := by
  unfold buildDrive
  split
  · exact .refl s
  dsimp only
  refine .trans ?_ (modRp_kept fun _ b => b.placeDrive ..)
  split
  · exact powerEffects_kept ..
  · exact .refl s

theorem advancePhase_kept (g : GenId) (s : State) : BoundsKept s (advancePhase g s) := by
  unfold advancePhase
  dsimp only
  split
  · exact (notice_kept ..).after (.modGen fun _ => rfl)
  · exact .modGen fun _ => rfl

theorem slotExpiry_kept (s : State) : BoundsKept s (slotExpiry s) := by
  unfold slotExpiry
  split
  · have restarted : BoundsKept s (restartSlot s) := .quiet rfl
    exact restarted.trans ((advancePhase_kept ..).trans ((advancePhase_kept ..).trans ((serveGenerator_kept ..).trans
      ((serveGenerator_kept ..).trans ((buildDrive_kept ..).trans (buildDrive_kept ..))))))
  · exact .refl s

end Sys2Proof.Machine
end

section
/-! PROOFS. Every command and every step keeps the bounds: the request's plumbing needs a place for the reply, which
the arrival and the taking of a request leave (R182, R185, R192). -/

namespace Sys2Proof.Machine

variable {s t u : State} {n : Nat}

/-! ### Resets and the tick -/

/-- An empty Ring Port is in bounds. -/
theorem RingPort.bounded_reset (station : BitVec 6) (skip : Bool) (n : Nat) :
    ({ State.reset.rp with station := station, skipFrame := skip } : RingPort).Bounded n :=
  ⟨List.nodup_nil, Nat.zero_le _, Nat.zero_le _, Nat.zero_le _, fun _ => ⟨rfl, rfl, rfl, rfl⟩, fun c => by
    simp [State.reset]⟩

theorem powerOn_bounded (straps : BitVec 6) (low : Bool) (s : State) : (powerOn straps low s).Bounded n := by
  refine ⟨RingPort.bounded_reset straps false n, Nat.zero_le _, fun g => ?_, Nat.zero_le _, fun h d => ?_⟩
  · rw [powerOn_gen]; exact Nat.zero_le _
  · rw [powerOn_head]; simp [Head.powerOn]

theorem softReset_bounded (s : State) : (softReset s).Bounded n := by
  refine ⟨RingPort.bounded_reset s.rp.station s.rp.skipFrame n, Nat.zero_le _, fun g => ?_, Nat.zero_le _, fun h d => ?_⟩
  · rw [softReset_gen]; exact Nat.zero_le _
  · rw [softReset_head]; simp [Head.softReset, Head.powerOn]

theorem tick_kept (s : State) : BoundsKept s (tick s) :=
  .quiet (books_eq_iff.2 ⟨rfl, rfl, fun g => by rw [tick_gen]; rfl, rfl, fun h => by rw [tick_head]; rfl⟩)

theorem releaseRst_kept (underWay : Bool) (s : State) : BoundsKept s (releaseRst underWay s) := by
  unfold releaseRst
  split
  · refine ⟨fun n b => ⟨?_, b.requests, b.histories, b.timeouts, b.deviations⟩⟩
    obtain ⟨drive, forward, replies, notices, free, counters⟩ := b.ring
    exact ⟨drive, forward, replies, notices, free, counters⟩
  · exact .refl s

/-! ### Commands -/

/-- Carrying out a command keeps the bounds. -/
def BodyBounded (body : State → Answer) : Prop := ∀ s, BoundsKept s (body s).after

theorem withHead_bounded {f : HeadId → State → Answer} (b : Byte) (each : ∀ h, BodyBounded (f h)) :
    BodyBounded (withHead b f) := by
  intro s
  unfold withHead; split
  · exact each _ s
  · exact .refl s

theorem withGen_bounded {f : GenId → State → Answer} (b : Byte) (each : ∀ g, BodyBounded (f g)) :
    BodyBounded (withGen b f) := by
  intro s
  unfold withGen; split
  · exact each _ s
  · exact .refl s

theorem withProfile_bounded {f : ProfileId → State → Answer} (b : Byte) (each : ∀ p, BodyBounded (f p)) :
    BodyBounded (withProfile b f) := by
  intro s
  unfold withProfile; split
  · exact each _ s
  · exact .refl s

theorem doStart_bounded (hd prof : Byte) (serial : Word32) : BodyBounded (doStart hd prof serial) := by
  intro s
  unfold doStart
  split
  · exact .refl s
  refine withHead_bounded hd (fun h t => ?_) s
  split
  · exact .refl t
  split
  · exact .refl t
  split
  · exact .refl t
  split
  · exact .refl t
  next p _ _ _ =>
    exact (enterJoint_kept h _).after ((BoundsKept.quiet (books_dropRescue ..)).after (.modHead fun _ => rfl))

theorem doAbort_bounded (hd : Byte) : BodyBounded (doAbort hd) :=
  withHead_bounded hd fun h t => by
    split
    · exact finishJoint_kept ..
    · exact .refl t

theorem doSuspendHead_bounded (hd : Byte) : BodyBounded (doSuspendHead hd) :=
  withHead_bounded hd fun h t => by
    split
    · exact .quiet (books_suspend ..)
    · exact .refl t

theorem doResumeHead_bounded (hd k : Byte) (cont : Bool) : BodyBounded (doResumeHead hd k cont) :=
  withHead_bounded hd fun h t => by
    split
    · exact .refl t
    split
    · exact .refl t
    split
    · exact .refl t
    split
    · exact .refl t
    split
    · exact .refl t
    · exact (enterJoint_kept h _).after (.modHead fun _ => rfl)

theorem doClearHead_bounded (hd : Byte) : BodyBounded (doClearHead hd) :=
  withHead_bounded hd fun h t => by
    split
    · exact .refl t
    split
    · exact .refl t
    · exact .quiet (books_modCtx ..)

theorem doDisableHead_bounded (hd : Byte) : BodyBounded (doDisableHead hd) :=
  withHead_bounded hd fun h t => by
    split
    · exact .refl t
    · exact .quiet (books_modHead h fun _ => rfl)

theorem doEnableHead_bounded (hd : Byte) : BodyBounded (doEnableHead hd) :=
  withHead_bounded hd fun h t => by
    split
    · exact .refl t
    · exact .quiet (books_modHead h fun _ => rfl)

theorem doClearFaults_bounded (hd : Byte) (kinds : List Byte) : BodyBounded (doClearFaults hd kinds) :=
  withHead_bounded hd fun h t => by
    split
    · exact .refl t
    · exact .quiet (books_modHead h fun _ => rfl)

theorem doWriteHeadConfig_bounded (w : HeadConfigArg) : BodyBounded (doWriteHeadConfig w) :=
  withHead_bounded w.head fun h t => by
    split
    · exact .refl t
    split
    · exact .refl t
    · exact .quiet (books_modHead h fun _ => rfl)

theorem doClearCoolantLatch_bounded (g : Byte) : BodyBounded (doClearCoolantLatch g) := by
  intro s
  unfold doClearCoolantLatch
  split
  · exact .refl s
  split
  · exact .refl s
  · exact .quiet rfl

theorem doClearGenerator_bounded (g : Byte) : BodyBounded (doClearGenerator g) :=
  withGen_bounded g fun g t => by
    split
    · exact .refl t
    split
    · exact .refl t
    · exact (notice_kept ..).after (.modGen fun _ => rfl)

/-- CLEAR COUNTERS sets every counter to 0 (R199). -/
theorem doClearCounters_bounded : BodyBounded doClearCounters := by
  refine fun s => ⟨fun n b => ?_⟩
  obtain ⟨drive, forward, replies, notices, free, -⟩ := b.ring
  let zeroed := (s.modAllHeads fun _ x => { x with deviations := Vector.replicate 11 0 }).modRp fun rp =>
    { rp with counters := Vector.replicate 9 0 }
  have bounded : zeroed.Bounded n := by
    refine ⟨⟨drive, forward, replies, notices, free, fun c => ?_⟩, b.requests, b.histories, b.timeouts, fun h d => ?_⟩
    · simp [zeroed]
    · simp [zeroed]
  exact bounded.withInterlocks (i := { s.interlocks with timeouts := 0 }) (Nat.zero_le _)

theorem doReadResults_bounded (count : Byte) : BodyBounded (doReadResults count) := by
  intro s
  unfold doReadResults
  split
  · exact .refl s
  · exact .quiet rfl

theorem doWritePhases_bounded (g i : Byte) (es : List Byte) (len : Byte) : BodyBounded (doWritePhases g i es len) :=
  withGen_bounded g fun g t => by
    split
    · exact .refl t
    split
    · exact .refl t
    split
    · exact .refl t
    · exact .quiet (books_modGen g fun _ => rfl)

theorem doLoadPhases_bounded (g : Byte) : BodyBounded (doLoadPhases g) :=
  withGen_bounded g fun g t => by
    split
    · exact .refl t
    split
    · exact .refl t
    · exact .quiet (books_modGen g fun _ => rfl)

theorem doWriteExclusions_bounded (ps : List (Byte × Byte)) : BodyBounded (doWriteExclusions ps) := by
  intro s
  unfold doWriteExclusions
  split
  · exact .refl s
  dsimp only
  split
  · exact .refl s
  · exact .quiet rfl

theorem reconfigured_history (x : Generator) (old new : PartConfig) (g : GenId) :
    (x.reconfigured old new g).history = x.history := by
  unfold Generator.reconfigured
  split
  · split <;> rfl
  split
  · rfl
  split <;> rfl

theorem reconfigure_kept (old : PartConfig) (g : GenId) (s : State) : BoundsKept s (reconfigure old g s) := by
  have changed : BoundsKept s (s.modGen g fun x => x.reconfigured old s.mu.config g) :=
    .modGen fun x => reconfigured_history ..
  unfold reconfigure
  dsimp only
  split
  · exact changed
  · exact (notice_kept ..).after changed

theorem doWritePartConfig_bounded (w : PartConfigArg) : BodyBounded (doWritePartConfig w) := by
  intro s
  unfold doWritePartConfig
  split
  · dsimp only
    split
    · exact .refl s
    split
    · exact .refl s
    · exact (reconfigure_kept ..).after ((reconfigure_kept ..).after (.quiet rfl))
  · exact .refl s

theorem doWriteFaultPolicy_bounded (ps : List (Byte × Byte)) : BodyBounded (doWriteFaultPolicy ps) := by
  intro s
  unfold doWriteFaultPolicy
  split
  · exact .refl s
  · exact .quiet rfl

theorem doWriteProfile_bounded (w : ProfileArg) : BodyBounded (doWriteProfile w) :=
  withProfile_bounded w.profile fun p t => by
    split
    · exact .refl t
    split
    · exact .refl t
    split
    · exact .refl t
    split
    · exact .refl t
    · exact .quiet rfl

theorem doEraseProfile_bounded (p : Byte) (e : Option Word16) : BodyBounded (doEraseProfile p e) :=
  withProfile_bounded p fun p t => by
    split
    · exact .refl t
    split
    · exact .refl t
    split
    · exact .refl t
    · exact .quiet rfl

theorem doLockProfile_bounded (p : Byte) : BodyBounded (doLockProfile p) :=
  withProfile_bounded p fun _ _ => .quiet rfl

theorem doUnlockProfile_bounded (p : Byte) : BodyBounded (doUnlockProfile p) :=
  withProfile_bounded p fun _ t => by
    split
    · exact .refl t
    · exact .quiet rfl

/-- Every command's body keeps the bounds; its reply is not part of it. -/
theorem CommandBody.bounded {body : State → Answer} (b : CommandBody body) : BodyBounded body := by
  cases b with
  | readStatus | readConfig | readCounters | readProfile | readPhases | readHead | readFaults | peekResults =>
    exact fun s => .quiet (by simp)
  | ackColdStart | resetPart => exact fun s => .quiet rfl
  | readResults count => exact doReadResults_bounded count
  | start h p serial => exact doStart_bounded h p serial
  | abort h => exact doAbort_bounded h
  | suspendHead h => exact doSuspendHead_bounded h
  | resumeHead h k cont => exact doResumeHead_bounded h k cont
  | clearHead h => exact doClearHead_bounded h
  | clearFaults h kinds => exact doClearFaults_bounded h kinds
  | clearCoolantLatch g => exact doClearCoolantLatch_bounded g
  | clearGenerator g => exact doClearGenerator_bounded g
  | clearCounters => exact doClearCounters_bounded
  | writeProfile w => exact doWriteProfile_bounded w
  | eraseProfile p e => exact doEraseProfile_bounded p e
  | lockProfile p => exact doLockProfile_bounded p
  | unlockProfile p => exact doUnlockProfile_bounded p
  | writePhases g i es len => exact doWritePhases_bounded g i es len
  | loadPhases g => exact doLoadPhases_bounded g
  | writeHeadConfig w => exact doWriteHeadConfig_bounded w
  | writeExclusions ps => exact doWriteExclusions_bounded ps
  | writePartConfig w => exact doWritePartConfig_bounded w
  | writeFaultPolicy ps => exact doWriteFaultPolicy_bounded ps
  | disableHead h => exact doDisableHead_bounded h
  | enableHead h => exact doEnableHead_bounded h

/-! ### Taking a request and its reply (R182, R192, R193) -/

/-- Taking a request needs a free reply place, and fills at most that. -/
def TakeBounded (take : State → State) : Prop := ∀ s, s.Bounded 3 → (take s).Bounded 4

theorem sendReply_bounded (q : Request) {a : Answer} (b : a.after.Bounded 3) : (sendReply q a).Bounded 4 :=
  ⟨b.ring.placeReply _, b.requests, fun g => by cases g; exacts [b.histories .a, b.histories .b], b.timeouts,
    b.deviations⟩

theorem serveOperator_bounded {q : Request} {body : State → Answer} (b : BodyBounded body) :
    TakeBounded (serveOperator q body) := fun s x => sendReply_bounded q ((b s).bounded 3 x)

theorem serveEngineer_bounded {q : Request} {body : State → Answer} (b : BodyBounded body) :
    TakeBounded (serveEngineer q body) := by
  intro s x
  refine sendReply_bounded q ?_
  split
  · exact (b s).bounded 3 x
  · exact x

theorem withArgs_bounded {α : Type} {read : Reader α} {args : List Byte} {f : α → State → Answer}
    (each : ∀ a, CommandBody (f a)) : BodyBounded (withArgs read args f) := by
  intro s
  unfold withArgs; split
  · exact (each _).bounded s
  · exact .refl s

/-- Whatever its command code, a request carried out fills at most one reply place. -/
theorem carryOut_bounded (q : Request) : TakeBounded (carryOut q) := by
  have operator : ∀ {α : Type} {read : Reader α} {f : α → State → Answer}, (∀ a, CommandBody (f a)) →
      TakeBounded (serveOperator q (withArgs read q.args f)) :=
    fun h => serveOperator_bounded (withArgs_bounded h)
  have engineer : ∀ {α : Type} {read : Reader α} {f : α → State → Answer}, (∀ a, CommandBody (f a)) →
      TakeBounded (serveEngineer q (withArgs read q.args f)) :=
    fun h => serveEngineer_bounded (withArgs_bounded h)
  unfold carryOut
  split
  · exact operator .readStatus
  · exact operator fun _ => .readConfig
  · exact operator .readCounters
  · exact operator .readProfile
  · exact operator fun a => .readPhases a.1 a.2
  · exact operator .readHead
  · exact operator .readFaults
  · exact operator .readResults
  · exact operator .peekResults
  · exact operator fun a => .start a.1 a.2.1 a.2.2
  · exact operator .abort
  · exact operator .suspendHead
  · exact operator fun a => .resumeHead a.1 a.2.1 a.2.2
  · exact operator .clearHead
  · exact operator fun a => .clearFaults a.1 a.2
  · exact operator .clearCoolantLatch
  · exact operator .clearGenerator
  · exact operator fun _ => .ackColdStart
  · exact operator fun _ => .clearCounters
  · exact engineer .writeProfile
  · exact engineer fun a => .eraseProfile a.1 a.2
  · exact engineer fun a => .lockProfile a.1
  · exact engineer fun a => .unlockProfile a.1
  · exact engineer fun a => .writePhases a.1 a.2.1 a.2.2.1 a.2.2.2
  · exact engineer .loadPhases
  · exact engineer .writeHeadConfig
  · exact engineer .writeExclusions
  · exact engineer .writePartConfig
  · refine serveEngineer_bounded fun s => ?_
    split
    · exact (CommandBody.writeFaultPolicy _).bounded s
    · exact .refl s
  · exact engineer .disableHead
  · exact engineer .enableHead
  · exact engineer fun _ => .resetPart
  · exact serveOperator_bounded fun s => .refl s

theorem State.Bounded.mono {m : Nat} (b : s.Bounded n) (le : n ≤ m) : s.Bounded m :=
  ⟨⟨b.ring.drive, b.ring.forward, b.ring.replies.trans le, b.ring.notices, b.ring.free, b.ring.counters⟩, b.requests,
    b.histories, b.timeouts, b.deviations⟩

/-- The level of ENG_EN is in no book. -/
theorem State.Bounded.withEng (b : s.Bounded n) (engEn : Bool) : ({ s with engEn := engEn } : State).Bounded n :=
  ⟨b.ring, b.requests, b.histories, b.timeouts, b.deviations⟩

/-- A change of the waiting requests. -/
theorem State.Bounded.withRequests (b : s.Bounded n) {l : List Request} (few : l.length ≤ 4) :
    (s.modMu fun m => { m with requests := l }).Bounded n :=
  ⟨b.ring, few, b.histories, b.timeouts, b.deviations⟩

/-- The oldest request is taken into a free reply place. -/
theorem takeOldest_bounded (b : s.Bounded 3) : (takeOldest s).Bounded 4 := by
  rcases takeOldest_cases s with ⟨-, e⟩ | ⟨q, rest, requests, e⟩ <;> rw [e]
  · exact b.mono (by decide)
  · have few := b.requests
    rw [requests, List.length_cons] at few
    exact carryOut_bounded q _ (b.withRequests (Nat.le_of_succ_le few))

/-- A request that arrives is counted, taken into a free reply place, or waits at one of four places. -/
theorem requestArrives_bounded (q : Request) {take : State → State} (taken : TakeBounded take) (b : s.Bounded 4) :
    (requestArrives q take s).Bounded 4 := by
  rcases requestArrives_cases q take s with ⟨-, e⟩ | ⟨-, room, -, e⟩ | ⟨room, e⟩ <;> rw [e]
  · exact (countPort_kept ..).bounded 4 b
  · have ring := b.ring
    exact taken s ⟨⟨ring.drive, ring.forward, Nat.le_of_lt_succ room, ring.notices, ring.free, ring.counters⟩, b.requests,
      b.histories, b.timeouts, b.deviations⟩
  · refine b.withRequests ?_
    rw [List.length_append, List.length_singleton]; exact room

/-! ### Frames, sends and rows (R180-R189) -/

/-- An event of the whole part that keeps the bounds. -/
def EventBounded (f : State → State) : Prop := ∀ s, s.Bounded 4 → (f s).Bounded 4

theorem placeForward_kept (bytes : List Byte) (s : State) : BoundsKept s (s.modRp fun rp => rp.placeForward bytes) :=
  modRp_kept fun _ b => b.placeForward bytes

theorem receive_bounded (engEn : Bool) {f : State → State} (each : EventBounded f) : EventBounded (receive engEn f) := by
  intro s b
  have ring := b.ring
  unfold receive
  dsimp only
  split
  · exact ⟨⟨ring.drive, ring.forward, ring.replies, ring.notices, ring.free, ring.counters⟩, b.requests, b.histories,
      b.timeouts, b.deviations⟩
  · exact each _ (b.withEng engEn)

theorem commandArrives_bounded (r : ReqHead) (code : Byte) (args : List Byte) {take : State → State}
    (taken : TakeBounded take) : EventBounded (commandArrives r code args take) :=
  receive_bounded r.engEn fun t b => by
    split
    · exact (placeForward_kept ..).bounded 4 b
    split
    · exact (countPort_kept ..).bounded 4 b
    · exact requestArrives_bounded _ taken b

theorem consume_bounded (f : Received) : EventBounded (consume f) := by
  intro s b
  have foreign : ∀ (c : Prop) [Decidable c] {t : State}, BoundsKept s t →
      (if c then t else s.countPort .foreignSource).Bounded 4 := by
    intro c _ t kept
    split
    · exact kept.bounded 4 b
    · exact (countPort_kept ..).bounded 4 b
  unfold consume
  split
  · exact foreign _ (takeSample_kept ..)
  split
  · exact foreign _ (takeGenstat_kept ..)
  split
  · exact foreign _ (takeInterlock_kept ..)
  split
  · split
    · exact requestArrives_bounded _ (carryOut_bounded _) b
    · exact b
  · exact (countPort_kept ..).bounded 4 b

/-- A frame is counted, forwarded or consumed (R180). -/
theorem arriveFrame_bounded (bytes : List Byte) : EventBounded (arriveFrame bytes) := by
  intro s b
  have counted : ∀ c, (s.countPort c).Bounded 4 := fun c => (countPort_kept c s).bounded 4 b
  unfold arriveFrame routeFrame
  split
  · exact counted _
  split
  · exact counted _
  split
  · exact counted _
  split
  · exact (placeForward_kept ..).bounded 4 b
  split
  · exact counted _
  split
  · exact counted _
  split
  · exact consume_bounded _ s b
  · exact (placeForward_kept ..).bounded 4 b

/-- The end of a send: where a reply leaves, its place serves the request then taken (R185, R192). -/
theorem sendEnd_bounded : EventBounded sendEnd := by
  intro s b
  obtain ⟨begun, left⟩ := b.ring.beginNext
  have next : ∀ {m}, s.rp.beginNext.Bounded m → (s.modRp RingPort.beginNext).Bounded m := fun ring =>
    ⟨ring, b.requests, fun g => by rw [State.gen_modRp]; exact b.histories g, b.timeouts, b.deviations⟩
  unfold sendEnd nextFrame
  split
  · exact b
  split
  · exact softReset_bounded s
  dsimp only
  split
  next reply =>
    rw [Bool.and_eq_true] at reply
    exact takeOldest_bounded (next (left reply.1))
  · exact next begun

theorem live_bounded {f : State → State} (each : EventBounded f) (b : s.Bounded 4) (e : live f s = .next t) :
    t.Bounded 4 := by
  obtain rfl : (if s.rstHeld then s else f s) = t := by injection e
  split
  · exact b
  · exact each s b

theorem live_bounded_of_kept {f : State → State} (each : ∀ s, BoundsKept s (f s)) (b : s.Bounded 4)
    (e : live f s = .next t) : t.Bounded 4 := live_bounded (fun s x => (each s).bounded 4 x) b e

theorem operatorRow_bounded {r : ReqHead} {code : Byte} {args : List Byte} {body : State → Answer} (b : s.Bounded 4)
    (e : operatorRow r code args body s = .next t) (h : CommandBody body) : t.Bounded 4 :=
  live_bounded (commandArrives_bounded _ _ _ (serveOperator_bounded h.bounded)) b e

theorem engineerRow_bounded {r : ReqHead} {code : Byte} {args : List Byte} {body : State → Answer} (b : s.Bounded 4)
    (e : engineerRow r code args body s = .next t) (h : CommandBody body) : t.Bounded 4 :=
  live_bounded (commandArrives_bounded _ _ _ (serveEngineer_bounded h.bounded)) b e

/-! ### Every command, and a step -/

theorem exec_bounded (c : Instr) (b : s.Bounded 4) (e : exec c s = .next t) : t.Bounded 4 := by
  cases c with
  | powerOnReset straps low =>
    obtain rfl : powerOn straps low s = t := by injection e
    exact powerOn_bounded straps low s
  | rstNRelease f =>
    obtain rfl : releaseRst f s = t := by injection e
    exact (releaseRst_kept f s).bounded 4 b
  | softReset =>
    refine live_bounded (fun s b => ?_) b e
    unfold softResetEvent; split
    · exact softReset_bounded s
    · exact b
  | frameArrival bytes engEn => exact live_bounded (receive_bounded engEn (arriveFrame_bounded bytes)) b e
  | portSendEnd engEn => exact live_bounded (fun s b => sendEnd_bounded _ (b.withEng engEn)) b e
  | unknownCommand r code args => exact live_bounded (commandArrives_bounded r code args (carryOut_bounded _)) b e
  | slotExpiry => exact live_bounded_of_kept slotExpiry_kept b e
  | segmentTimerExpiry h => exact live_bounded_of_kept (segmentExpiry_kept h) b e
  | sampleTimerExpiry h => exact live_bounded_of_kept (sampleExpiry_kept h) b e
  | resumeWindowExpiry h => exact live_bounded_of_kept (windowExpiry_kept h) b e
  | rescueLimitExpiry g => exact live_bounded_of_kept (rescueLimitExpiry_kept g) b e
  | wakeTimerExpiry g => exact live_bounded_of_kept (wakeExpiry_kept g) b e
  | statusTimerExpiry g => exact live_bounded_of_kept (statusExpiry_kept g) b e
  | idleTimerExpiry g => exact live_bounded_of_kept (idleExpiry_kept g) b e
  | interlockFrameTimerExpiry => exact live_bounded_of_kept interlockExpiry_kept b e
  | timebaseTick => exact live_bounded_of_kept tick_kept b e
  | readStatus r page => exact operatorRow_bounded b e (.readStatus page)
  | readConfig r => exact operatorRow_bounded b e .readConfig
  | readCounters r page => exact operatorRow_bounded b e (.readCounters page)
  | readProfile r p => exact operatorRow_bounded b e (.readProfile p)
  | readPhases r g table => exact operatorRow_bounded b e (.readPhases g table)
  | readHead r h => exact operatorRow_bounded b e (.readHead h)
  | readFaults r h => exact operatorRow_bounded b e (.readFaults h)
  | readResults r n => exact operatorRow_bounded b e (.readResults n)
  | peekResults r n => exact operatorRow_bounded b e (.peekResults n)
  | start r h p n => exact operatorRow_bounded b e (.start h p n)
  | abort r h => exact operatorRow_bounded b e (.abort h)
  | suspendHead r h => exact operatorRow_bounded b e (.suspendHead h)
  | resumeHead r h k cont => exact operatorRow_bounded b e (.resumeHead h k cont)
  | clearHead r h => exact operatorRow_bounded b e (.clearHead h)
  | clearFaults r h ks => exact operatorRow_bounded b e (.clearFaults h ks)
  | clearCoolantLatch r g => exact operatorRow_bounded b e (.clearCoolantLatch g)
  | clearGenerator r g => exact operatorRow_bounded b e (.clearGenerator g)
  | ackColdStart r => exact operatorRow_bounded b e .ackColdStart
  | clearCounters r => exact operatorRow_bounded b e .clearCounters
  | writeProfile r w => exact engineerRow_bounded b e (.writeProfile w)
  | eraseProfile r p x => exact engineerRow_bounded b e (.eraseProfile p x)
  | lockProfile r p x => exact engineerRow_bounded b e (.lockProfile p)
  | unlockProfile r p x => exact engineerRow_bounded b e (.unlockProfile p)
  | writePhases r g i es n => exact engineerRow_bounded b e (.writePhases g i es n)
  | loadPhases r g => exact engineerRow_bounded b e (.loadPhases g)
  | writeHeadConfig r w => exact engineerRow_bounded b e (.writeHeadConfig w)
  | writeExclusions r ps => exact engineerRow_bounded b e (.writeExclusions ps)
  | writePartConfig r w => exact engineerRow_bounded b e (.writePartConfig w)
  | writeFaultPolicy r ps => exact engineerRow_bounded b e (.writeFaultPolicy ps)
  | disableHead r h => exact engineerRow_bounded b e (.disableHead h)
  | enableHead r h => exact engineerRow_bounded b e (.enableHead h)
  | resetPart r => exact engineerRow_bounded b e .resetPart

theorem step_bounded (b : s.Bounded 4) (e : step s = .next t) : t.Bounded 4 := by
  unfold step at e
  split at e
  · obtain rfl : s = t := by injection e
    exact b
  next c rest _ =>
    have waiting : ({ s with pending := rest } : State).Bounded 4 :=
      ⟨b.ring, b.requests, b.histories, b.timeouts, b.deviations⟩
    exact exec_bounded c waiting e

end Sys2Proof.Machine

namespace Sys2Proof.Proofs

open Sys2Proof.Machine

/-- Settles O53: the two laws are one bound on the part, kept by every event and by every command, whose reply finds
a free place. -/
theorem stepKeepsQueuesAndCounters : Obligations.StepKeepsQueuesAndCounters :=
  fun _ _ queues counters e => bounded_iff.1 (step_bounded (bounded_iff.2 ⟨queues, counters⟩) e)

end Sys2Proof.Proofs
end

section
/-! PROOFS. The commands of the phase tables and the exclusion list: WRITE PHASES, LOAD PHASES and WRITE EXCLUSIONS
(R77-R79, R86). -/

namespace Sys2Proof.Machine

variable {s t : State} {r : ReqHead}

/-! ### Rows and readings -/

/-- An engineer row whose body changes generator `g` is answered with its data, the generator changed. -/
theorem engineerRow_writesGen (takes : s.TakesEngineer r) {code : Byte} {args data : List Byte}
    {body : State → Answer} {g : GenId} {f : Generator → Generator}
    (e : body { s with engEn := r.engEn } = accept data (State.modGen { s with engEn := r.engEn } g f)) :
    engineerRow r code args body s = .next ((s.modGen g f).answered r code .ok data) :=
  engineerRow_does takes (e.trans (by cases g <;> rfl))

/-- A list with an entry that cannot be read is not read. -/
theorem mapM_eq_none_of_mem {α β : Type} {f : α → Option β} {x : α} {xs : List α} (mem : x ∈ xs) (bad : f x = none) :
    xs.mapM f = none := by
  induction mem with
  | head xs => simp [List.mapM_cons, bad]
  | tail y _ ih => cases e : f y <;> simp [List.mapM_cons, e, ih]

/-- A list of codes is read back entry by entry. -/
theorem mapM_map_eq_some {α β : Type} {f : α → Option β} {code : β → α} {ys : List β}
    (reads : ∀ y ∈ ys, f (code y) = some y) : (ys.map code).mapM f = some ys := by
  induction ys with
  | nil => rfl
  | cons y ys ih =>
    simp [List.mapM_cons, reads y (.head _), ih fun z mem => reads z (.tail _ mem)]

theorem entryOf_none {x : Byte} (out : 16 ≤ x.toNat) (given : x ≠ 255) : entryOf x = none := by
  rw [entryOf, if_neg given, headOf_none out]; rfl

/-! ### The staged table -/

/-- What WRITE PHASES leaves at each index (R78). -/
theorem PhaseTable.written_entries (x : PhaseTable) (start len : Nat) (es : List (Option HeadId)) (i : Fin 32) :
    (x.written start es len).entries[i] =
      if len ≤ i.val then none
      else if start ≤ i.val ∧ i.val < start + es.length then (es[i.val - start]?).join
      else x.entries[i] := by
  simp only [PhaseTable.written, Fin.getElem_fin, Vector.getElem_ofFn]
  refine if_congr Iff.rfl rfl ?_
  by_cases before : start ≤ i.val
  · by_cases inside : i.val < start + es.length
    · have read : es[i.val - start]? = some es[i.val - start] := List.getElem?_eq_getElem (by omega)
      rw [if_pos before, if_pos ⟨before, inside⟩, read]; rfl
    · have past : es[i.val - start]? = none := List.getElem?_eq_none (by omega)
      rw [if_pos before, if_neg (fun both => inside both.2), past]
  · rw [if_neg before, if_neg (fun both => before both.1)]

/-- An index of a table names a head below the length and among the 32 positions (R75). -/
theorem PhaseTable.at_eq_some_iff {x : PhaseTable} {n : Nat} {h : HeadId} :
    x.at n = some h ↔ n < x.length ∧ ∃ i : Fin 32, i.val = n ∧ x.entries[i] = some h := by
  unfold PhaseTable.at
  by_cases inside : n < x.length
  · rw [if_pos inside, and_iff_right inside, Option.join_eq_some_iff, Vector.getElem?_eq_some_iff]
    exact ⟨fun ⟨small, e⟩ => ⟨⟨n, small⟩, rfl, e⟩, fun ⟨i, at_, e⟩ => by subst at_; exact ⟨i.isLt, e⟩⟩
  · rw [if_neg inside]
    exact ⟨nofun, fun both => absurd both.1 inside⟩

/-- The staged table is not valid exactly where an entry names a head that is not bound to the generator (R79). -/
theorem State.stagedValid_eq_false_iff {g : GenId} :
    s.stagedValid g = false ↔ ∃ (i : Fin 32) (h : HeadId), i.val < (s.gen g).staged.length
      ∧ (s.gen g).staged.entries[i] = some h ∧ (s.head h).cfg.binding ≠ some g := by
  simp only [State.stagedValid, List.all_eq_false, List.mem_range]
  constructor
  · rintro ⟨n, inside, invalid⟩
    split at invalid
    · exact absurd rfl invalid
    next h named =>
    obtain ⟨-, i, rfl, entry⟩ := PhaseTable.at_eq_some_iff.1 named
    exact ⟨i, h, inside, entry, fun bound => invalid (beq_iff_eq.2 bound)⟩
  · rintro ⟨i, h, inside, entry, unbound⟩
    refine ⟨i.val, inside, ?_⟩
    rw [PhaseTable.at_eq_some_iff.2 ⟨inside, i, rfl, entry⟩]
    exact fun bound => unbound (beq_iff_eq.1 bound)

/-! ### Distinct pairs (R86) -/

/-- A pair without its order. -/
def unordered (p : HeadId × HeadId) : Sym2 HeadId := s(p.1, p.2)

/-- Two pairs of heads are the same exactly where they are the same unordered pair. -/
theorem samePair_iff {p q : HeadId × HeadId} : samePair p q = true ↔ unordered p = unordered q := by
  simp [samePair, unordered, Prod.ext_iff]

/-- Distinct pairs are no more than the pairs among which each is found. -/
theorem length_le_of_pairs_found {l m : List (HeadId × HeadId)}
    (distinct : l.Pairwise fun p q => samePair p q = false) (found : ∀ p ∈ l, ∃ q ∈ m, samePair p q = true) :
    l.length ≤ m.length := by
  have once : (l.map unordered).Nodup := List.pairwise_map.2 <| distinct.imp fun differ same =>
    Bool.eq_false_iff.1 differ (samePair_iff.2 same)
  have among : l.map unordered ⊆ m.map unordered := by
    intro x mem
    obtain ⟨p, inside, rfl⟩ := List.mem_map.1 mem
    obtain ⟨q, there, same⟩ := found p inside
    exact List.mem_map.2 ⟨q, there, (samePair_iff.1 same).symm⟩
  simpa using (once.subperm among).length_le

theorem samePair_refl (p : HeadId × HeadId) : samePair p p = true := samePair_iff.2 rfl

/-- Adding a pair keeps the pairs there, and the pair is found among them after. -/
theorem addPair_found (acc : List (HeadId × HeadId)) (p : HeadId × HeadId) :
    acc ⊆ addPair acc p ∧ ∃ q ∈ addPair acc p, samePair p q = true := by
  unfold addPair
  split
  next there => exact ⟨fun _ mem => mem, List.any_eq_true.1 there⟩
  · exact ⟨fun _ => List.mem_append_left [p], p, by simp, samePair_refl p⟩

theorem addPair_subset {acc ps : List (HeadId × HeadId)} {p : HeadId × HeadId} (old : acc ⊆ ps) (new : p ∈ ps) :
    addPair acc p ⊆ ps := by
  unfold addPair
  split
  · exact old
  · exact List.append_subset.2 ⟨old, fun _ mem => List.mem_singleton.1 mem ▸ new⟩

/-- The distinct pairs of a list are of the list, and each pair of the list is found among them. -/
theorem distinctPairs_found (ps : List (HeadId × HeadId)) :
    distinctPairs ps ⊆ ps ∧ ∀ p ∈ ps, ∃ q ∈ distinctPairs ps, samePair p q = true := by
  suffices fold : ∀ acc, acc ⊆ ps → ∀ qs, qs ⊆ ps → (∀ p ∈ acc, p ∈ qs.foldl addPair acc)
      ∧ qs.foldl addPair acc ⊆ ps ∧ ∀ p ∈ qs, ∃ q ∈ qs.foldl addPair acc, samePair p q = true by
    exact (fold [] (List.nil_subset _) ps (fun _ mem => mem)).2
  intro acc old qs
  induction qs generalizing acc with
  | nil => exact fun _ => ⟨fun _ mem => mem, old, nofun⟩
  | cons p qs ih =>
    intro given
    obtain ⟨first, rest⟩ := List.cons_subset.1 given
    obtain ⟨kept, q, there, same⟩ := addPair_found acc p
    obtain ⟨stay, among, found⟩ := ih _ (addPair_subset old first) rest
    refine ⟨fun x mem => stay x (kept mem), among, fun x mem => ?_⟩
    rcases List.mem_cons.1 mem with rfl | later
    · exact ⟨q, stay q there, same⟩
    · exact found x later

theorem pairOf_none {p : Byte × Byte} (bad : 16 ≤ p.1.toNat ∨ 16 ≤ p.2.toNat ∨ p.1 = p.2) : pairOf p = none := by
  rcases bad with out | out | same
  · rw [pairOf, headOf_none out]
  · rw [pairOf, headOf_none out]; split <;> simp_all
  · rw [pairOf, same]
    split
    next h k one other => rw [if_pos (Option.some.inj (one.symm.trans other))]
    · rfl

/-- The bytes of two different heads are read as their pair. -/
theorem pairOf_bytes {p : HeadId × HeadId} (ne : p.1 ≠ p.2) : pairOf (byte p.1.val, byte p.2.val) = some p := by
  simp [pairOf, ne]

/-- WRITE EXCLUSIONS on the bytes of pairs of different heads (R86). -/
theorem doWriteExclusions_bytes {ps : List (HeadId × HeadId)} (ne : ∀ p ∈ ps, p.1 ≠ p.2) (u : State) :
    doWriteExclusions (ps.map fun p => (byte p.1.val, byte p.2.val)) u =
      if 16 < (distinctPairs ps).length then refuse .badArgument u
      else accept [byte (distinctPairs ps).length]
        { u with slots := { u.slots with exclusions := distinctPairs ps } } := by
  rw [doWriteExclusions, mapM_map_eq_some fun p mem => pairOf_bytes (ne p mem)]

end Sys2Proof.Machine

namespace Sys2Proof.Proofs

open Sys2Proof.Machine

/-- Settles O33: the branches of LOAD PHASES in the order of R79. -/
theorem loadPhasesSetsLoadPending : Obligations.LoadPhasesSetsLoadPending := by
  intro s r takes
  refine ⟨fun b out => engineerRow_refuses takes (withGen_none out ..), fun g => ?_⟩
  have body : doLoadPhases (genCode g) { s with engEn := r.engEn } = _ := withGen_genCode ..
  have valid : State.stagedValid { s with engEn := r.engEn } g = s.stagedValid g := rfl
  refine ⟨fun busy => engineerRow_refuses takes (body.trans (if_pos busy)), fun free bad => ?_, fun free fine => ?_⟩
  all_goals have passed := body.trans (if_neg (Bool.eq_false_iff.1 free))
  · have invalid := State.stagedValid_eq_false_iff.2 bad
    exact engineerRow_refuses takes (passed.trans (if_pos (by rw [valid, invalid]; rfl)))
  · have checked : s.stagedValid g = true := Bool.eq_true_of_not_eq_false (mt State.stagedValid_eq_false_iff.1 fine)
    exact engineerRow_writesGen takes (passed.trans (if_neg (by rw [valid, checked]; decide)))

/-- Settles O32: the branches of WRITE PHASES in the order of R77, the new table by `PhaseTable.written_entries`. -/
theorem writePhasesChangesStagedTable : Obligations.WritePhasesChangesStagedTable := by
  intro s r takes
  refine ⟨fun b start len es bad => engineerRow_refuses takes ?_, fun g start len es small inside => ?_⟩
  · by_cases named : 2 ≤ b.toNat
    · exact withGen_none named ..
    unfold doWritePhases withGen
    split
    · by_cases sizes : 32 < len.toNat ∨ len.toNat < start.toNat + es.length
      · exact if_pos sizes
      obtain ⟨x, mem, out, given⟩ : ∃ x ∈ es, 16 ≤ x.toNat ∧ x ≠ 255 := by tauto
      dsimp only
      rw [if_neg sizes, mapM_eq_none_of_mem mem (entryOf_none out given)]
    · rfl
  · have body : doWritePhases (genCode g) start (es.map headCode) len { s with engEn := r.engEn } =
        if (s.gen g).loadPending then refuse .busy { s with engEn := r.engEn }
        else accept [len] (State.modGen { s with engEn := r.engEn } g fun x =>
          { x with staged := x.staged.written start.toNat es len.toNat, stagedDiffers := true }) := by
      rw [doWritePhases, withGen_genCode, if_neg (by rw [List.length_map]; omega),
        mapM_map_eq_some fun hd _ => entryOf_headCode hd]
      rfl
    refine ⟨fun busy => engineerRow_refuses takes (body.trans (if_pos busy)), fun free =>
      ⟨(s.gen g).staged.written start.toNat es len.toNat, rfl, PhaseTable.written_entries _ _ _ _, ?_⟩⟩
    rw [State.modGen_congr s g (f' := fun x =>
      { x with staged := x.staged.written start.toNat es len.toNat, stagedDiffers := true }) rfl]
    exact engineerRow_writesGen takes (body.trans (if_neg (Bool.eq_false_iff.1 free)))

/-- Settles O34: the list stored is `distinctPairs`, which counts the distinct pairs given however they are named. -/
theorem writeExclusionsReplacesList : Obligations.WriteExclusionsReplacesList := by
  intro s r takes
  refine ⟨fun ps ⟨p, mem, bad⟩ => engineerRow_refuses takes ?_, fun ps l ne among many distinct =>
    engineerRow_refuses takes ?_, fun ps l ne among few found distinct => ?_⟩
  · rw [doWriteExclusions, mapM_eq_none_of_mem mem (pairOf_none bad)]
  · have counted := length_le_of_pairs_found distinct fun p mem => (distinctPairs_found ps).2 p (among p mem)
    exact (doWriteExclusions_bytes ne _).trans (if_pos (by omega))
  · obtain ⟨subset, covers⟩ := distinctPairs_found ps
    have once := (distinctPairs_legal ne).1
    have count : (distinctPairs ps).length = l.length :=
      (length_le_of_pairs_found once fun p mem => found p (subset mem)).antisymm
        (length_le_of_pairs_found distinct fun p mem => covers p (among p mem))
    refine ⟨distinctPairs ps, count, subset, covers, once, ?_⟩
    rw [← count]
    exact engineerRow_does takes ((doWriteExclusions_bytes ne _).trans (if_neg (by omega)))

end Sys2Proof.Proofs
end

section
/-! PROOFS. The transmit queues: how a frame enters one, and which frame the port sends next (R92, R183-R185, R192). -/

namespace Sys2Proof.Machine

variable {s : State} {rp : RingPort}

/-! ### A frame that is placed -/

/-- A frame begins at once on a free port with its queue empty (R185). -/
theorem begins_iff {α : Type} {port : Option TxFrame} {queue : List α} :
    (port.isNone && queue.isEmpty) = true ↔ port = none ∧ queue = [] := by simp

/-- On a busy port, or behind others, it waits. -/
theorem waits_of {α : Type} {port : Option TxFrame} {queue : List α} (busy : port ≠ none ∨ queue ≠ []) :
    ¬ (port.isNone && queue.isEmpty) = true := by
  rw [begins_iff, not_and_or]; exact busy

theorem RingPort.placeForward_of_full (full : 24 ≤ rp.forward.length) (bytes : List Byte) :
    rp.placeForward bytes = rp.count .forwardOverrun := if_pos full

theorem RingPort.placeForward_of_free (free : rp.port = none) (empty : rp.forward = []) (bytes : List Byte) :
    rp.placeForward bytes = { rp with port := some ⟨bytes, false⟩ } := by
  rw [placeForward, if_neg (by simp [empty]), if_pos (begins_iff.2 ⟨free, empty⟩)]

theorem RingPort.placeForward_of_busy (room : rp.forward.length < 24) (busy : rp.port ≠ none ∨ rp.forward ≠ [])
    (bytes : List Byte) : rp.placeForward bytes = { rp with forward := rp.forward ++ [⟨bytes, false⟩] } := by
  rw [placeForward, if_neg (by omega), if_neg (waits_of busy)]

theorem RingPort.placeNotice_of_full (full : 16 ≤ rp.notices.length) (f : TxFrame) :
    rp.placeNotice f = rp.count .noticeDropped := if_pos full

theorem RingPort.placeNotice_of_free (free : rp.port = none) (empty : rp.notices = []) (f : TxFrame) :
    rp.placeNotice f = { rp with port := some f } := by
  rw [placeNotice, if_neg (by simp [empty]), if_pos (begins_iff.2 ⟨free, empty⟩)]

theorem RingPort.placeNotice_of_busy (room : rp.notices.length < 16) (busy : rp.port ≠ none ∨ rp.notices ≠ [])
    (f : TxFrame) : rp.placeNotice f = { rp with notices := rp.notices ++ [f] } := by
  rw [placeNotice, if_neg (by omega), if_neg (waits_of busy)]

theorem RingPort.placeReply_of_free (free : rp.port = none) (empty : rp.replies = []) (f : TxFrame) :
    rp.placeReply f = { rp with port := some f } := if_pos (begins_iff.2 ⟨free, empty⟩)

theorem RingPort.placeReply_of_busy (busy : rp.port ≠ none ∨ rp.replies ≠ []) (f : TxFrame) :
    rp.placeReply f = { rp with replies := rp.replies ++ [f] } := if_neg (waits_of busy)

/-- A list without a generator's frame is left as it is by a replacement of that frame. -/
theorem replaceDrive_eq_self {l : List (GenId × TxFrame)} {g : GenId} (others : ∀ p ∈ l, p.1 ≠ g) (f : TxFrame) :
    (l.map fun p => if p.1 == g then (g, f) else p) = l :=
  (List.map_congr_left fun p mem => if_neg (by simpa using others p mem)).trans (List.map_id' l)

/-- An unsent DRIVE frame for the same generator is replaced in its place (R92). -/
theorem RingPort.placeDrive_replaces {g : GenId} {pre post : List (GenId × TxFrame)} {old : TxFrame}
    (waits : rp.drive = pre ++ (g, old) :: post) (once : ∀ p ∈ pre ++ post, p.1 ≠ g) (f : TxFrame) :
    rp.placeDrive g f = ({ rp with drive := pre ++ (g, f) :: post } : RingPort).count .driveReplaced := by
  have before := replaceDrive_eq_self (fun p mem => once p (List.mem_append_left _ mem)) f
  have behind := replaceDrive_eq_self (fun p mem => once p (List.mem_append_right _ mem)) f
  rw [placeDrive, if_pos (by simp [waits]), waits, List.map_append, List.map_cons, before, behind,
    if_pos (beq_self_eq_true g)]

theorem RingPort.no_drive_of {g : GenId} (none : ∀ p ∈ rp.drive, p.1 ≠ g) :
    ¬ rp.drive.any (fun p => p.1 == g) = true := by
  simpa using fun f mem => none (g, f) mem rfl

theorem RingPort.placeDrive_of_free {g : GenId} (free : rp.port = none) (empty : rp.drive = []) (f : TxFrame) :
    rp.placeDrive g f = { rp with port := some f } := by
  rw [placeDrive, if_neg (no_drive_of (by simp [empty])), if_pos (begins_iff.2 ⟨free, empty⟩)]

theorem RingPort.placeDrive_of_busy {g : GenId} (first : ∀ p ∈ rp.drive, p.1 ≠ g)
    (busy : rp.port ≠ none ∨ rp.drive ≠ []) (f : TxFrame) :
    rp.placeDrive g f = { rp with drive := rp.drive ++ [(g, f)] } := by
  rw [placeDrive, if_neg (no_drive_of first), if_neg (waits_of busy)]

/-! ### The end of a send -/

theorem RingPort.beginNext_drive {p : GenId × TxFrame} {rest : List (GenId × TxFrame)} (drive : rp.drive = p :: rest) :
    rp.beginNext = { rp with port := some p.2, drive := rest } := by
  simp [beginNext, drive]

theorem RingPort.beginNext_forward {f : TxFrame} {rest : List TxFrame} (drive : rp.drive = [])
    (forward : rp.forward = f :: rest) : rp.beginNext = { rp with port := some f, forward := rest } := by
  simp [beginNext, drive, forward]

theorem RingPort.beginNext_replies {f : TxFrame} {rest : List TxFrame} (drive : rp.drive = [])
    (forward : rp.forward = []) (replies : rp.replies = f :: rest) :
    rp.beginNext = { rp with port := some f, replies := rest } := by
  simp [beginNext, drive, forward, replies]

theorem RingPort.beginNext_notices {f : TxFrame} {rest : List TxFrame} (drive : rp.drive = [])
    (forward : rp.forward = []) (replies : rp.replies = []) (notices : rp.notices = f :: rest) :
    rp.beginNext = { rp with port := some f, notices := rest } := by
  simp [beginNext, drive, forward, replies, notices]

theorem RingPort.beginNext_idle (drive : rp.drive = []) (forward : rp.forward = []) (replies : rp.replies = [])
    (notices : rp.notices = []) : rp.beginNext = { rp with port := none } := by
  simp [beginNext, drive, forward, replies, notices]

/-- The end of an unmarked frame's send begins the next frame. -/
theorem exec_portSendEnd {cur : TxFrame} (running : s.rstHeld = false) (sends : s.rp.port = some cur)
    (unmarked : cur.resetMark = false) (e : Bool) :
    exec (.portSendEnd e) s = .next (nextFrame { s with engEn := e }) := by
  rw [exec, execPortSendEnd, live_of_running _ running]
  simp only [sendEnd, sends, unmarked, Bool.false_eq_true, if_false]

/-- Where no waiting request is taken, the next frame is all there is. -/
theorem nextFrame_of_untaken (still : s.rp.nextIsReply = true → s.mu.requests = [] ∨ s.mu.resetPending = true) :
    nextFrame s = s.modRp RingPort.beginNext := by
  simp only [nextFrame]
  split
  next taken =>
    obtain ⟨reply, unmarked⟩ : s.rp.nextIsReply = true ∧ s.mu.resetPending = false := by simpa using taken
    have empty : s.mu.requests = [] := (still reply).resolve_right (by simp [unmarked])
    rcases takeOldest_cases (s.modRp RingPort.beginNext) with ⟨-, e⟩ | ⟨q, rest, waits, -⟩
    · exact e
    · exact absurd (empty.symm.trans waits) nofun
  · rfl

/-- The end of an unmarked frame's send where no waiting request is taken. -/
theorem exec_portSendEnd_of_untaken {cur : TxFrame} (running : s.rstHeld = false) (sends : s.rp.port = some cur)
    (unmarked : cur.resetMark = false)
    (still : s.rp.nextIsReply = true → s.mu.requests = [] ∨ s.mu.resetPending = true) (e : Bool) :
    exec (.portSendEnd e) s = .next { s with engEn := e, rp := s.rp.beginNext } :=
  (exec_portSendEnd running sends unmarked e).trans (congrArg Host.Outcome.next (nextFrame_of_untaken still))

end Sys2Proof.Machine

namespace Sys2Proof.Proofs

open Sys2Proof.Machine

/-- Settles O11: the placings are those of the four queues; at a send's end `beginNext` takes from the first queue
that has a frame, and only a reply's leaving could take a request. -/
theorem portSendsByPreference : Obligations.PortSendsByPreference := by
  refine ⟨fun rp bytes => ⟨fun full => RingPort.placeForward_of_full full bytes,
      fun free empty => RingPort.placeForward_of_free free empty bytes,
      fun room busy => RingPort.placeForward_of_busy room busy bytes⟩,
    fun rp f => ⟨fun full => RingPort.placeNotice_of_full full f,
      fun free empty => RingPort.placeNotice_of_free free empty f,
      fun room busy => RingPort.placeNotice_of_busy room busy f⟩,
    fun rp f => ⟨fun free empty => RingPort.placeReply_of_free free empty f,
      fun busy => RingPort.placeReply_of_busy busy f⟩,
    fun rp g f => ⟨fun pre old post waits once => RingPort.placeDrive_replaces waits once f,
      fun free empty => RingPort.placeDrive_of_free free empty f,
      fun first busy => RingPort.placeDrive_of_busy first busy f⟩, fun s e cur running sends unmarked => ?_⟩
  have ends := fun still => exec_portSendEnd_of_untaken running sends unmarked still e
  refine ⟨fun p rest drive => ?_, fun f rest drive forward => ?_, fun f rest drive forward replies still => ?_,
    fun f rest drive forward replies notices => ?_, fun drive forward replies notices => ?_⟩
  · rw [ends (by simp [RingPort.nextIsReply, drive]), RingPort.beginNext_drive drive]
  · rw [ends (by simp [RingPort.nextIsReply, forward]), RingPort.beginNext_forward drive forward]
  · rw [ends (fun _ => still), RingPort.beginNext_replies drive forward replies]
  · rw [ends (by simp [RingPort.nextIsReply, replies]), RingPort.beginNext_notices drive forward replies notices]
  · rw [ends (by simp [RingPort.nextIsReply, replies]), RingPort.beginNext_idle drive forward replies notices]

end Sys2Proof.Proofs
end

section
/-! PROOFS. What a GENSTAT records and credits stands when the report has acted: no turn of a head touches the energy,
the deviation counters, or what the report set on its generator (R117-R122). -/

namespace Sys2Proof.Machine

variable {s t u : State}

/-! ### Reading (R117, log 38) -/

theorem reportedOf_none {st : Byte} (out : 4 ≤ st.toNat) : reportedOf st = none := by
  have other : ∀ b : Byte, b.toNat < 4 → st ≠ b := fun b small e => by subst e; omega
  rw [reportedOf, if_neg (other 0 (by decide)), if_neg (other 1 (by decide)), if_neg (other 2 (by decide)),
    if_neg (other 3 (by decide))]

/-- A byte below 4 names a reported state. -/
theorem reportedOf_some {st : Byte} (inside : st.toNat < 4) : ∃ r, reportedOf st = some r :=
  ⟨_, reportedOf_eq (List.getElem?_eq_getElem inside)⟩

/-- A GENSTAT with a field out of range is not read. -/
theorem readGenstat_none {gen st hd : Byte} (bad : genOf gen = none ∨ reportedOf st = none ∨ entryOf hd = none)
    (v power : Word16) (slot : Byte) : readGenstat ([gen, st] ++ enc16 v ++ enc16 power ++ [slot, hd]) = none := by
  change readGenstat [gen, st, byte v.toNat, byte (v.toNat / 256), byte power.toNat, byte (power.toNat / 256), slot,
    hd] = none
  unfold readGenstat
  dsimp only
  split
  next named reported entry => rcases bad with e | e | e <;> simp_all
  · rfl

theorem takeGenstat_malformed {payload : List Byte} (none : readGenstat payload = none) (a : State) :
    takeGenstat payload a = a.countPort .malformed := by rw [takeGenstat, none]

/-- A GENSTAT frame whose generator byte names none is accepted from any source (R181). -/
theorem exec_genstatFrame_unnamed {e : Bool} {src gen : Byte} (consumes : s.Consumes src 0) (out : 2 ≤ gen.toNat)
    (st : Byte) (v power : Word16) (slot head : Byte) :
    exec (.frameArrival (s.genstatFrame src gen st v power slot head) e) s =
      .next (takeGenstat ([gen, st] ++ enc16 v ++ enc16 power ++ [slot, head]) { s with engEn := e }) := by
  obtain ⟨up, fresh, low, high, foreign, accepted⟩ := consumes
  have fits : ([gen, st] ++ enc16 v ++ enc16 power ++ [slot, head]).length ≤ 248 := show 8 ≤ 248 by decide
  refine (exec_frameArrival up fresh _ e).trans (congrArg Host.Outcome.next ?_)
  refine (arriveFrame_mkFrame (s := { s with engEn := e }) low high foreign fits rfl).trans ?_
  have station : State.genstatStation { s with engEn := e }
      ([gen, st] ++ enc16 v ++ enc16 power ++ [slot, head]) = 0 := by
    change (match genOf gen with | some g => s.mu.config.station g | none => 0) = 0
    rw [genOf_none out]
  refine (if_neg (show (2 : Byte) ≠ 1 by decide)).trans ((if_pos rfl).trans (if_pos ?_))
  dsimp only
  rw [station]
  exact sourceOk_of accepted

/-! ### What crediting leaves of the generator -/

/-- Crediting changes no generator (R121). -/
theorem creditEnergy_gen (m : Genstat) (g : GenId) : (creditEnergy m s).gen g = s.gen g := by
  rcases creditEnergy_cases (s := s) m with e | ⟨h, d, -, -, e⟩ | ⟨h, x, -, -, -, -, e⟩ <;> rw [e]
  exacts [rfl, State.gen_modHead ..]

/-! ### The energies and deviation counters -/

/-- Every head's credited energy and deviation counters stay. -/
structure CreditsKept (s t : State) : Prop where
  heads : ∀ h, (t.head h).ctx.energy = (s.head h).ctx.energy ∧ (t.head h).deviations = (s.head h).deviations

theorem CreditsKept.refl (s : State) : CreditsKept s s := ⟨fun _ => ⟨rfl, rfl⟩⟩

theorem CreditsKept.trans (a : CreditsKept s t) (b : CreditsKept t u) : CreditsKept s u :=
  ⟨fun h => ⟨(b.heads h).1.trans (a.heads h).1, (b.heads h).2.trans (a.heads h).2⟩⟩

/-- A change that leaves every head as it is. -/
theorem CreditsKept.of_heads (same : ∀ h, t.head h = s.head h) : CreditsKept s t :=
  ⟨fun h => by rw [same]; exact ⟨rfl, rfl⟩⟩

/-- A fault suspends or ends the joint, and both leave energy and counters (R35, R39). -/
theorem FaultActs.creditsKept {h : HeadId} {k : FaultKind} (f : FaultActs h k s t) : CreditsKept s t := by
  refine ⟨fun j => ?_⟩
  by_cases own : j = h
  · subst own
    by_cases act : s.actionOn j k = .suspend
    · have suspended := (f.suspends act).1
      have energy := congrArg HeadContext.energy suspended.joint
      exact ⟨energy, suspended.kept.2.1⟩
    · have ended := f.ends act
      have energy := congrArg HeadContext.energy ended.ctx
      exact ⟨energy, ended.kept.2.1⟩
  · rw [f.others.heads j own]
    exact ⟨rfl, rfl⟩

/-- A head that enters a segment keeps them (R29, R65). -/
theorem Head.entered_credits (x : Head) (seg : Segment) (now : Word32) (three : Nat) :
    (x.entered seg now three).ctx.energy = x.ctx.energy ∧ (x.entered seg now three).deviations = x.deviations := by
  cases seg <;> exact ⟨rfl, rfl⟩

theorem EntryTurn.creditsKept {h : HeadId} (e : EntryTurn h s t) : CreditsKept s t := by
  rcases e.cases with ⟨-, rfl⟩ | ⟨seg, v, -, entered, others, -, -, after, -⟩
  · exact .refl _
  have first : CreditsKept s v := by
    refine ⟨fun j => ?_⟩
    by_cases own : j = h
    · subst own; rw [entered]; exact Head.entered_credits ..
    · rw [others.heads j own]; exact ⟨rfl, rfl⟩
  rcases after with rfl | ⟨k, fault⟩
  · exact first
  · exact first.trans fault.creditsKept

/-- Turns that each keep them, keep them. -/
theorem Turns.creditsKept {α : Type} {turn : α → State → State → Prop}
    (each : ∀ k a b, turn k a b → CreditsKept a b) {l : List α} (e : Turns turn l s t) : CreditsKept s t := by
  induction l generalizing s with
  | nil => rw [show t = s from e]; exact .refl _
  | cons k l ih =>
    obtain ⟨m, first, rest⟩ := Turns.cons_iff.1 e
    exact (each k s m first).trans (ih rest)

theorem GenFaulted.creditsKept {g : GenId} {cause : GenCause} (f : GenFaulted g cause s t) : CreditsKept s t := by
  have entered : CreditsKept s (s.faultEntered g cause) := .of_heads fun h => faultEntered_head s g cause h
  refine entered.trans (f.turns.creditsKept fun h a b turn => ?_)
  by_cases heated : s.heatedBy g h
  · exact (turn.1 heated).creditsKept
  · rw [turn.2 heated]; exact .refl _

theorem GenReadied.creditsKept {g : GenId} (f : GenReadied g s t) : CreditsKept s t := by
  obtain ⟨w, turns, rfl⟩ := f.turns
  have kept : CreditsKept s w := by
    refine .trans (.of_heads fun h => State.head_modGen ..) (turns.creditsKept fun h a b turn => ?_)
    by_cases waits : s.waitsFor g h
    · exact (turn.1 waits).creditsKept
    · rw [turn.2 waits]; exact .refl _
  exact kept.trans (.of_heads fun h => State.head_modGen (s := w) ..)

/-! ### What the report set on its generator -/

/-- Reported state, voltage, budget and drive history, which a change of the generator's state leaves. -/
def Generator.report (x : Generator) : Option Reported × Option Nat × Nat × List DriveEntry :=
  (x.reported, x.bus, x.budget, x.history)

theorem GenFaulted.report {g : GenId} {cause : GenCause} (f : GenFaulted g cause s t) :
    (t.gen g).report = (s.gen g).report := by
  rw [f.gen]; cases g <;> rfl

theorem GenReadied.report {g : GenId} (f : GenReadied g s t) : (t.gen g).report = (s.gen g).report := by
  have same := congrArg Generator.report f.gen
  exact same

/-- Whatever a report does to its generator's state, what was recorded and credited stands (R118). -/
theorem applyReport_keeps (g : GenId) (r : Reported) (live : (u.gen g).state ≠ .off) :
    ((applyReport g r u).gen g).report = (u.gen g).report ∧ CreditsKept u (applyReport g r u) := by
  have faulted : ∀ cause, ((faultGenerator g cause u).gen g).report = (u.gen g).report
      ∧ CreditsKept u (faultGenerator g cause u) := fun cause =>
    ⟨(faultGenerator_faulted u g cause).report, (faultGenerator_faulted u g cause).creditsKept⟩
  have stays : ∀ {v}, v = u → (v.gen g).report = (u.gen g).report ∧ CreditsKept u v := fun e => by
    rw [e]; exact ⟨rfl, .refl u⟩
  cases state : (u.gen g).state with
  | off => exact absurd state live
  | faulted => exact stays (applyReport_of_stays (.inl state))
  | standby =>
    by_cases fault : r = .fault
    · rw [fault, applyReport_of_fault live (by rw [state]; nofun)]
      exact faulted _
    · exact stays (applyReport_of_stays (.inr (.inl ⟨state, fault⟩)))
  | waking =>
    cases r with
    | fault =>
      rw [applyReport_of_fault live (by rw [state]; nofun)]
      exact faulted _
    | ready =>
      rw [applyReport_of_ready state]
      exact ⟨(readyGenerator_readied state).report, (readyGenerator_readied state).creditsKept⟩
    | standby => exact stays (applyReport_of_stays (.inr (.inr (.inr ⟨state, .inl rfl⟩))))
    | waking => exact stays (applyReport_of_stays (.inr (.inr (.inr ⟨state, .inr rfl⟩))))
  | ready =>
    cases r with
    | fault =>
      rw [applyReport_of_fault live (by rw [state]; nofun)]
      exact faulted _
    | ready => exact stays (applyReport_of_stays (.inr (.inr (.inl ⟨state, rfl⟩))))
    | standby =>
      rw [applyReport_of_lost state (.inl rfl)]
      exact faulted _
    | waking =>
      rw [applyReport_of_lost state (.inr rfl)]
      exact faulted _

end Sys2Proof.Machine

namespace Sys2Proof.Proofs

open Sys2Proof.Machine

/-- Settles O47: the reading's refusals, then the report recorded and credited (`report_taken`), which stands when
the report has acted (`applyReport_keeps`). -/
theorem genstatRecordsAndCredits : Obligations.GenstatRecordsAndCredits := by
  intro s e src v power slot
  refine ⟨fun gen st hd consumes out => ?_, fun g consumes => ⟨fun st hd bad => ?_, fun st hd inside off => ?_,
    fun st r hd live reported => ?_⟩⟩
  · exact (exec_genstatFrame_unnamed consumes out ..).trans
      (congrArg _ (takeGenstat_malformed (readGenstat_none (.inl (genOf_none out)) v power slot) _))
  · have unread : reportedOf st = none ∨ entryOf hd = none :=
      bad.imp reportedOf_none fun ⟨out, given⟩ => entryOf_none out given
    exact (exec_genstatFrame consumes ..).trans
      (congrArg _ (takeGenstat_malformed (readGenstat_none (.inr unread) v power slot) _))
  · obtain ⟨r, named⟩ := reportedOf_some inside
    refine (exec_genstatFrame consumes ..).trans (congrArg _ ?_)
    unfold takeGenstat
    rw [readGenstat_eq named]
    exact if_pos off
  · intro old
    let a : State := { s with engEn := e }
    let m : Genstat :=
      { gen := g, reported := r, bus := min v.toNat 1000, delivered := min power.toNat 2500, slot := slot, head := hd }
    let u := creditEnergy m (recordReport m a)
    have state : (u.gen g).state = old := report_gen_state m a
    have recorded : u.gen g = (recordReport m a).gen g := creditEnergy_gen m g
    have set : (u.gen g).reported = some r ∧ (u.gen g).bus = some (min v.toNat 1000)
        ∧ (u.gen g).history = (s.gen g).history := by
      rw [recorded, recordReport, State.gen_modGen_same]
      exact ⟨rfl, rfl, rfl⟩
    have taken : takeGenstat ([genCode g, st] ++ enc16 v ++ enc16 power ++ [slot, headCode hd]) a =
        applyReport g r u := by
      unfold takeGenstat
      rw [readGenstat_eq (reportedOf_eq reported)]
      exact if_neg live
    obtain ⟨report, credits⟩ := applyReport_keeps (u := u) g r (by rw [state]; exact live)
    simp only [Generator.report, Prod.mk.injEq] at report
    obtain ⟨same, volts, budget, history⟩ := report
    refine ⟨u, applyReport g r u, report_taken a g r v.toNat power.toNat slot hd,
      (exec_genstatFrame consumes st v power slot (headCode hd)).trans (congrArg _ taken), same.trans set.1,
      volts.trans set.2.1, budget, history.trans set.2.2, credits.heads, fun stays => ?_⟩
    rw [← state] at stays
    exact applyReport_of_stays stays

end Sys2Proof.Proofs
end

section
/-! PROOFS. A slot expiry, stage by stage: the rounds advance, and what the service of the slot leaves as it is
(R73, R74, R76, R80, R92, R98). -/

namespace Sys2Proof.Machine

variable {s t u : State}

/-! ### What the service of a slot leaves -/

/-- A head with the scheduler's marks of another: request, counts, and the flags derated and served. -/
def Head.marked (x y : Head) : Head :=
  { x with
      ctx := { x.ctx with derated := y.ctx.derated, served := y.ctx.served, rescueCount := y.ctx.rescueCount },
      deviations := y.deviations, rescueReq := y.rescueReq }

/-- A generator with the rescue place and the drive history of another. -/
def Generator.given (x y : Generator) : Generator :=
  { x with inService := y.inService, limitTimer := y.limitTimer, history := y.history }

/-- What steps 3 to 5 of R74 leave: the heads beside the scheduler's marks, the generators beside rescue place and
history, the queues beside the DRIVE frames, a busy port, and the rest of the part. -/
structure Scheduled (s t : State) : Prop where
  heads : ∀ h, t.head h = (s.head h).marked (t.head h)
  derated : ∀ h, (s.head h).ctx.derated = true → (t.head h).ctx.derated = true
  served : ∀ h, (s.head h).ctx.served = true → (t.head h).ctx.served = true
  gens : ∀ g, t.gen g = (s.gen g).given (t.gen g)
  profiles : t.profiles = s.profiles
  mu : t.mu = s.mu
  slots : t.slots = s.slots
  interlocks : t.interlocks = s.interlocks
  results : t.results = s.results
  timebase : t.timebase = s.timebase
  station : t.rp.station = s.rp.station
  queues : t.rp.notices = s.rp.notices ∧ t.rp.forward = s.rp.forward ∧ t.rp.replies = s.rp.replies
  port : s.rp.port ≠ none → t.rp.port = s.rp.port

theorem Scheduled.refl (s : State) : Scheduled s s :=
  ⟨fun _ => rfl, fun _ on => on, fun _ on => on, fun _ => rfl, rfl, rfl, rfl, rfl, rfl, rfl, rfl, ⟨rfl, rfl, rfl⟩,
    fun _ => rfl⟩

theorem Scheduled.trans (a : Scheduled s t) (b : Scheduled t u) : Scheduled s u where
  heads h := by rw [b.heads h, a.heads h]; rfl
  derated h on := b.derated h (a.derated h on)
  served h on := b.served h (a.served h on)
  gens g := by rw [b.gens g, a.gens g]; rfl
  profiles := b.profiles.trans a.profiles
  mu := b.mu.trans a.mu
  slots := b.slots.trans a.slots
  interlocks := b.interlocks.trans a.interlocks
  results := b.results.trans a.results
  timebase := b.timebase.trans a.timebase
  station := b.station.trans a.station
  queues := ⟨b.queues.1.trans a.queues.1, b.queues.2.1.trans a.queues.2.1, b.queues.2.2.trans a.queues.2.2⟩
  port busy := (b.port (by rw [a.port busy]; exact busy)).trans (a.port busy)

/-- The same, the later change first. -/
theorem Scheduled.after (b : Scheduled t u) (a : Scheduled s t) : Scheduled s u := a.trans b

/-- A change of one head's marks that lowers neither flag. -/
theorem Scheduled.modHead {h : HeadId} {f : Head → Head} (marks : ∀ x, f x = x.marked (f x))
    (derated : ∀ x, x.ctx.derated = true → (f x).ctx.derated = true)
    (served : ∀ x, x.ctx.served = true → (f x).ctx.served = true) : Scheduled s (s.modHead h f) := by
  have each : ∀ {P : Head → Head → Prop}, (∀ x, P x x) → (∀ x, P x (f x)) →
      ∀ j, P (s.head j) ((s.modHead h f).head j) := fun {P} same changed j => by
    by_cases own : j = h
    · subst own; rw [State.head_modHead_same]; exact changed _
    · rw [State.head_modHead_other _ _ own]; exact same _
  exact ⟨each (P := fun x y => y = x.marked y) (fun _ => rfl) marks,
    each (P := fun x y => x.ctx.derated = true → y.ctx.derated = true) (fun _ on => on) derated,
    each (P := fun x y => x.ctx.served = true → y.ctx.served = true) (fun _ on => on) served,
    fun g => by rw [State.gen_modHead]; rfl, rfl, rfl, rfl, rfl, rfl, rfl, rfl, ⟨rfl, rfl, rfl⟩, fun _ => rfl⟩

/-- A deviation counted. -/
theorem Scheduled.countDev (h : HeadId) (d : Deviation) : Scheduled s (s.countDev h d) :=
  .modHead (fun _ => rfl) (fun _ on => on) fun _ on => on

/-- A change of one generator's rescue place and history. -/
theorem Scheduled.modGen {g : GenId} {f : Generator → Generator} (given : ∀ x, f x = x.given (f x)) :
    Scheduled s (s.modGen g f) where
  heads h := by rw [State.head_modGen]; rfl
  derated h on := by rw [State.head_modGen]; exact on
  served h on := by rw [State.head_modGen]; exact on
  gens j := by
    by_cases own : j = g
    · subst own; rw [State.gen_modGen_same]; exact given _
    · rw [State.gen_modGen_other _ _ own]; rfl
  profiles := State.modGen_profiles ..
  mu := State.modGen_mu ..
  slots := State.modGen_slots ..
  interlocks := State.modGen_interlocks ..
  results := State.modGen_results ..
  timebase := State.modGen_timebase ..
  station := by rw [State.modGen_rp]
  queues := by rw [State.modGen_rp]; exact ⟨rfl, rfl, rfl⟩
  port _ := by rw [State.modGen_rp]

/-- A DRIVE frame is placed behind the port's and the other queues' backs (R92, R185). -/
theorem placeDrive_frame (rp : RingPort) (g : GenId) (f : TxFrame) :
    (rp.placeDrive g f).station = rp.station
      ∧ ((rp.placeDrive g f).notices = rp.notices ∧ (rp.placeDrive g f).forward = rp.forward
        ∧ (rp.placeDrive g f).replies = rp.replies)
      ∧ (rp.port ≠ none → (rp.placeDrive g f).port = rp.port) := by
  unfold RingPort.placeDrive
  split
  · exact ⟨rfl, ⟨rfl, rfl, rfl⟩, fun _ => rfl⟩
  split
  next free =>
    exact ⟨rfl, ⟨rfl, rfl, rfl⟩, fun busy => absurd (begins_iff.1 free).1 busy⟩
  · exact ⟨rfl, ⟨rfl, rfl, rfl⟩, fun _ => rfl⟩

theorem Scheduled.placeDrive (g : GenId) (f : TxFrame) : Scheduled s (s.modRp fun rp => rp.placeDrive g f) :=
  have ⟨station, queues, port⟩ := placeDrive_frame s.rp g f
  ⟨fun _ => rfl, fun _ on => on, fun _ on => on, fun _ => rfl, rfl, rfl, rfl, rfl, rfl, rfl, station, queues, port⟩

theorem grantRescue_scheduled (g : GenId) (h : HeadId) (s : State) : Scheduled s (grantRescue g h s) := by
  unfold grantRescue
  exact (Scheduled.countDev ..).after ((Scheduled.modGen fun _ => rfl).after
    (.modHead (fun _ => rfl) (fun _ on => on) fun _ on => on))

theorem resolveRescue_scheduled (g : GenId) (s : State) : Scheduled s (resolveRescue g s) := by
  rcases resolveRescue_cases g s with e | ⟨w, -, -, e⟩ | ⟨k, w, -, -, -, e⟩ <;> rw [e]
  · exact .refl s
  · exact grantRescue_scheduled ..
  · unfold preempt
    exact (grantRescue_scheduled ..).after <| .after (.modHead (fun _ => rfl) (fun _ on => on) fun _ on => on)
      (.modGen fun _ => rfl)

theorem countBorrowed_scheduled (sel : Option (HeadId × SlotKind)) (s : State) : Scheduled s (countBorrowed sel s) := by
  unfold countBorrowed
  split
  · exact .countDev ..
  · exact .refl s

theorem powerEffects_scheduled (g : GenId) (h : HeadId) (s : State) : Scheduled s (powerEffects g h s) := by
  have derates : Scheduled s (if s.budgetLimits g h then
      (s.modCtx h fun c => { c with derated := true }).countDev h .derated else s) := by
    split
    · exact (Scheduled.countDev ..).after (.modHead (fun _ => rfl) (fun _ _ => rfl) fun _ on => on)
    · exact .refl s
  unfold powerEffects
  dsimp only
  refine (Scheduled.modGen fun _ => rfl).after ?_
  split
  · exact .after (.modHead (fun _ => rfl) (fun _ on => on) fun _ _ => rfl) derates
  · exact derates

theorem buildDrive_scheduled (g : GenId) (served : Option HeadId) (s : State) :
    Scheduled s (buildDrive g served s) := by
  unfold buildDrive
  split
  · exact .refl s
  dsimp only
  split
  · exact (Scheduled.placeDrive ..).after (powerEffects_scheduled ..)
  · exact .placeDrive ..

/-! ### The rounds advance (R76, R80) -/

/-- A pending load completes at this slot (R80). -/
def Generator.completes (x : Generator) : Bool :=
  x.loadPending && (advancePointer x.active.length x.pointer == some 0 || x.active.length == 0)

theorem Generator.completes_iff {x : Generator} : x.completes = true ↔
    x.loadPending = true ∧ (advancePointer x.active.length x.pointer = some 0 ∨ x.active.length = 0) := by
  simp [Generator.completes]

/-- A generator's tables and pointer after step 2 of R74. -/
def Generator.advanced (x : Generator) : Generator :=
  if x.completes then x.completeLoad else { x with pointer := advancePointer x.active.length x.pointer }

/-- One generator's round advances: its tables and pointer, and the notice of a load that completes (R80). -/
theorem advancePhase_eq (g : GenId) (s : State) :
    advancePhase g s = { s.modGen g Generator.advanced with
      rp := if (s.gen g).completes then
          s.offered s.rp [1, genCode g, byte (s.gen g).staged.length, s.slots.number]
        else s.rp } := by
  unfold advancePhase
  dsimp only
  by_cases completes : (s.gen g).completes = true
  · have changed : s.modGen g Generator.advanced = s.modGen g fun x => x.completeLoad :=
      State.modGen_congr s g (if_pos completes)
    rw [if_pos completes, changed]
    refine (if_pos completes).trans ?_
    rw [State.noticePhaseLoaded, State.notice_eq, State.gen_modGen_same, State.modGen_slots]
    cases g <;> rfl
  · have changed : s.modGen g Generator.advanced =
        s.modGen g fun x => { x with pointer := advancePointer (s.gen g).active.length (s.gen g).pointer } :=
      State.modGen_congr s g (if_neg completes)
    rw [if_neg completes, changed]
    refine (if_neg completes).trans ?_
    cases g <;> rfl

/-- The part after steps 1 and 2 of R74. -/
def slotRounds (s : State) : State := advancePhase .b (advancePhase .a (restartSlot s))

/-- The Ring Port `rp` after the notice of the load of `g` that completes at a slot expiry of `s` (R80). -/
def State.loadNoticed (s : State) (rp : RingPort) (g : GenId) : RingPort :=
  if (s.gen g).completes then s.offered rp [1, genCode g, byte (s.gen g).staged.length, s.slots.number + 1] else rp

/-- Steps 1 and 2 of R74, whole. -/
theorem slotRounds_eq (s : State) : slotRounds s = { s with
    slots := { s.slots with timer := s.mu.config.slotPeriod, period := s.mu.config.slotPeriod,
                            number := s.slots.number + 1 },
    gens := { a := s.gens.a.advanced, b := s.gens.b.advanced },
    rp := s.loadNoticed (s.loadNoticed s.rp .a) .b } := by
  have station : (s.loadNoticed s.rp .a).station = s.rp.station := by
    unfold State.loadNoticed
    split
    · exact offered_station ..
    · rfl
  have first : advancePhase .a (restartSlot s) = { restartSlot s with
      gens := { s.gens with a := s.gens.a.advanced }, rp := s.loadNoticed s.rp .a } := advancePhase_eq ..
  have same : ∀ payload, State.offered (advancePhase .a (restartSlot s)) (s.loadNoticed s.rp .a) payload =
      s.offered (s.loadNoticed s.rp .a) payload := fun payload => by
    rw [first]
    simp only [State.offered, State.ownStation, restartSlot, station]
  have second : slotRounds s = { State.modGen (advancePhase .a (restartSlot s)) .b Generator.advanced with
      rp := if (s.gen .b).completes then
          State.offered (advancePhase .a (restartSlot s)) (s.loadNoticed s.rp .a)
            [1, genCode .b, byte (s.gen .b).staged.length, s.slots.number + 1]
        else s.loadNoticed s.rp .a } := by
    rw [slotRounds, advancePhase_eq .b, first]; rfl
  rw [second, same, first]
  rfl

theorem loadNoticed_frame (s : State) (rp : RingPort) (g : GenId) :
    (s.loadNoticed rp g).station = rp.station ∧ (s.loadNoticed rp g).drive = rp.drive
      ∧ (s.loadNoticed rp g).forward = rp.forward ∧ (s.loadNoticed rp g).replies = rp.replies := by
  unfold State.loadNoticed State.offered
  split
  · split
    · exact ⟨rfl, rfl, rfl, rfl⟩
    · obtain ⟨station, -, drive, forward, replies⟩ := placeNotice_frame rp
        ⟨mkFrame (byte s.mu.config.noticeStation) s.ownStation 10 _, false⟩
      exact ⟨station, drive, forward, replies⟩
  · exact ⟨rfl, rfl, rfl, rfl⟩

theorem slotRounds_gen (s : State) (g : GenId) : (slotRounds s).gen g = (s.gen g).advanced := by
  rw [slotRounds_eq]; cases g <;> rfl

theorem slotRounds_head (s : State) (h : HeadId) : (slotRounds s).head h = s.head h := by
  rw [slotRounds_eq]; rfl

/-- What an advance leaves of a generator: all but table, flags and pointer. -/
theorem Generator.advanced_of_completes {x : Generator} (e : x.completes = true) : x.advanced = x.completeLoad :=
  if_pos e

theorem Generator.advanced_of_not_completes {x : Generator} (e : ¬ x.completes = true) :
    x.advanced = { x with pointer := advancePointer x.active.length x.pointer } := if_neg e

/-- An advance changes the active table, the load's flags and the pointer alone. -/
theorem Generator.advanced_frame (x : Generator) : x.advanced =
    { x with active := x.advanced.active, pointer := x.advanced.pointer, loadPending := x.advanced.loadPending,
             stagedDiffers := x.advanced.stagedDiffers } := by
  unfold Generator.advanced
  split <;> rfl

/-! ### The whole expiry -/

/-- Steps 3 to 5 of R74: both generators are served, then both DRIVE frames are built. -/
def slotService (s : State) : State :=
  let a := serveGenerator .a none s
  let b := serveGenerator .b a.2 a.1
  buildDrive .b b.2 (buildDrive .a a.2 b.1)

theorem slotService_scheduled (s : State) : Scheduled s (slotService s) := by
  have serves : ∀ g other u, Scheduled u (serveGenerator g other u).1 := fun g other u =>
    (countBorrowed_scheduled ..).after (resolveRescue_scheduled g u)
  unfold slotService
  exact (buildDrive_scheduled ..).after ((buildDrive_scheduled ..).after ((serves ..).after (serves ..)))

/-- A slot expiry advances the rounds and serves the slot (R74). -/
theorem exec_slotExpiry (running : s.rstHeld = false) (due : s.slots.timer = 0) :
    exec .slotExpiry s = .next (slotService (slotRounds s)) :=
  (live_of_running slotExpiry running).trans (congrArg Host.Outcome.next (if_pos due))

end Sys2Proof.Machine

namespace Sys2Proof.Proofs

open Sys2Proof.Machine

/-- Settles O49: the rounds by `slotRounds_eq`; the service of the slot leaves what `Scheduled` says. -/
theorem slotAdvancesRounds : Obligations.SlotAdvancesRounds := by
  intro s running
  refine ⟨fun left => (live_of_running slotExpiry running).trans (congrArg Host.Outcome.next (if_neg left)),
    fun due => ?_⟩
  intro p completes offer noticed
  have is : ∀ g, completes g ↔ (s.gen g).completes = true := fun g => Generator.completes_iff.symm
  have offers : ∀ rp g, offer rp g = s.loadNoticed rp g := fun rp g => if_congr (is g) rfl rfl
  have ring : (slotRounds s).rp = noticed := by
    rw [slotRounds_eq]; simp only [noticed, offers]
  have passed : noticed.forward = s.rp.forward ∧ noticed.replies = s.rp.replies := by
    obtain ⟨-, -, forwardB, repliesB⟩ := loadNoticed_frame s (s.loadNoticed s.rp .a) .b
    obtain ⟨-, -, forwardA, repliesA⟩ := loadNoticed_frame s s.rp .a
    simp only [noticed, offers]
    exact ⟨forwardB.trans forwardA, repliesB.trans repliesA⟩
  have kept := slotService_scheduled (slotRounds s)
  have tables : ∀ g, (slotService (slotRounds s)).gen g =
      (s.gen g).advanced.given ((slotService (slotRounds s)).gen g) := fun g => by
    rw [← slotRounds_gen]; exact kept.gens g
  refine ⟨slotService (slotRounds s), exec_slotExpiry running due, ?_, fun g => ?_, fun h => ?_, ?_, ?_⟩
  · rw [kept.slots, slotRounds_eq]
  · rw [tables g]
    refine ⟨fun e => ?_, fun e => ?_, ?_⟩
    · rw [Generator.advanced_of_completes ((is g).1 e)]
      exact ⟨rfl, rfl, rfl, rfl⟩
    · rw [Generator.advanced_of_not_completes (mt (is g).2 e)]
      exact ⟨rfl, rfl, rfl, rfl⟩
    · rw [Generator.advanced_frame]
      exact ⟨rfl, rfl, rfl, rfl, rfl, rfl, rfl, rfl, rfl, rfl⟩
  · have marks := kept.heads h
    have derated := kept.derated h
    have served := kept.served h
    rw [slotRounds_head] at marks derated served
    exact ⟨marks, derated, served⟩
  · obtain ⟨notices, forward, replies⟩ := kept.queues
    have port := kept.port
    rw [ring] at notices forward replies port
    exact ⟨notices, forward.trans passed.1, replies.trans passed.2, port⟩
  · have rounds := slotRounds_eq s
    rw [kept.profiles, kept.mu, kept.interlocks, kept.results, kept.timebase, rounds]
    exact ⟨rfl, rfl, rfl, rfl, rfl⟩

end Sys2Proof.Proofs
end

section
/-! PROOFS. Which head a slot feeds: the selection is the one of R83-R85 (R76, R82-R87). -/

namespace Sys2Proof.Machine

variable {s t u : State} {x y : Generator} {g : GenId} {other : Option HeadId}

/-! ### The entries of the active table, from the pointer on -/

/-- The pointer is inside the active table, and none where that is empty (R75, R76). -/
def Generator.Pointed (x : Generator) : Prop :=
  (x.pointer = none ∧ x.active.length = 0) ∨ ∃ i, i < x.active.length ∧ x.pointer = some i

/-- After an advance the pointer is inside its table, whatever it was (R76, R80). -/
theorem Generator.advanced_pointed (x : Generator) : x.advanced.Pointed := by
  unfold Generator.advanced
  split
  · by_cases empty : x.staged.length = 0
    · exact .inl ⟨if_pos empty, empty⟩
    · exact .inr ⟨0, Nat.pos_of_ne_zero empty, if_neg empty⟩
  · exact (advancePointer_cases x.active.length x.pointer).imp And.symm id

/-- The entry `j` places after a pointer inside its table (R85). -/
theorem Generator.entryAfter_of_pointer {p : Nat} (at_ : x.pointer = some p) (inside : p < x.active.length) (j : Nat) :
    x.entryAfter j = x.active.at ((p + j) % x.active.length) := by
  have wraps : (p + j) % x.active.length < x.active.length := Nat.mod_lt _ (by omega)
  simp only [Generator.entryAfter, at_, PhaseTable.at, if_pos wraps]

/-- The phase entry stands 0 places after the pointer (R76). -/
theorem Generator.entry_eq (pointed : x.Pointed) : x.entry = x.entryAfter 0 := by
  rcases pointed with ⟨none, -⟩ | ⟨p, inside, at_⟩
  · simp only [Generator.entry, Generator.entryAfter, none, Option.bind_none]
  · rw [Generator.entryAfter_of_pointer at_ inside, Nat.add_zero, Nat.mod_eq_of_lt inside, Generator.entry, at_]
    rfl

/-- Every entry of the active table stands some places after the pointer. -/
theorem Generator.entry_reached (pointed : x.Pointed) {i : Fin 32} {h : HeadId} (inside : i.val < x.active.length)
    (entry : x.active.entries[i] = some h) : ∃ j, j < x.active.length ∧ x.entryAfter j = some h := by
  rcases pointed with ⟨-, empty⟩ | ⟨p, small, at_⟩
  · omega
  have named : x.active.at i.val = some h := PhaseTable.at_eq_some_iff.2 ⟨inside, i, rfl, entry⟩
  have reaches : ∀ j, (p + j) % x.active.length = i.val → x.entryAfter j = some h := fun j e => by
    rw [Generator.entryAfter_of_pointer at_ small, e, named]
  by_cases before : i.val < p
  · refine ⟨i.val + x.active.length - p, by omega, reaches _ ?_⟩
    rw [show p + (i.val + x.active.length - p) = i.val + x.active.length by omega, Nat.add_mod_right,
      Nat.mod_eq_of_lt inside]
  · refine ⟨i.val - p, by omega, reaches _ ?_⟩
    rw [show p + (i.val - p) = i.val by omega, Nat.mod_eq_of_lt inside]

/-! ### A slot that is lent (R85) -/

/-- The first of the entries 1 to `n - 1` places on that meets a test. -/
theorem find_filterMap_range {f : Nat → Option HeadId} {ok : HeadId → Bool} {n : Nat} {h : HeadId} :
    (((List.range (n - 1)).map fun i => f (1 + i)).filterMap id).find? ok = some h ↔
      ∃ j, 1 ≤ j ∧ j < n ∧ f j = some h ∧ ok h = true
        ∧ ∀ i k, 1 ≤ i → i < j → f i = some k → ¬ ok k = true := by
  rw [List.filterMap_map, Function.id_comp, List.find?_filterMap, Option.bind_eq_some_iff]
  simp only [List.find?_range_eq_some, List.mem_range]
  constructor
  · rintro ⟨i, ⟨test, small, first⟩, named⟩
    rw [named] at test
    refine ⟨1 + i, by omega, by omega, named, test, fun l k low high entry bad => ?_⟩
    have skipped := first (l - 1) (by omega)
    rw [show 1 + (l - 1) = l by omega, entry, Option.any_some, bad] at skipped
    exact nomatch skipped
  · rintro ⟨j, low, high, named, test, first⟩
    have back : 1 + (j - 1) = j := by omega
    refine ⟨j - 1, ⟨by rw [back, named]; exact test, by omega, fun l small => ?_⟩, by rw [back]; exact named⟩
    cases entry : f (1 + l) with
    | none => rfl
    | some k => simpa using first (1 + l) k (by omega) (by omega) entry

/-- The borrower is the first eligible head after the pointer, in table order (R85). -/
theorem borrower_iff (pointed : (s.gen g).Pointed) {h : HeadId} :
    s.borrower g other = some h ↔ ∃ j, 1 ≤ j ∧ j < (s.gen g).active.length ∧ (s.gen g).entryAfter j = some h
      ∧ s.eligible g other h = true
      ∧ ∀ i k, 1 ≤ i → i < j → (s.gen g).entryAfter i = some k → ¬ s.eligible g other k = true := by
  rw [← find_filterMap_range]
  rcases pointed with ⟨none, -⟩ | ⟨p, inside, at_⟩
  · have nothing : ∀ j, (s.gen g).entryAfter j = Option.none := fun j => by rw [Generator.entryAfter, none]
    simp [State.borrower, none, nothing]
  · simp only [State.borrower, at_, PhaseTable.after, Generator.entryAfter_of_pointer at_ inside, Nat.add_assoc]

/-! ### The selection (R83-R85) -/

/-- The head in service takes the slot (R83). -/
theorem rescueTakes_iff (pointed : (s.gen g).Pointed) {r : HeadId} :
    s.rescueTakes g other r = true ↔ s.eligible g other r = true
      ∧ ∀ e, (s.gen g).entryAfter 0 = some e → s.eligible g other e = true →
          ¬ ∃ a d c, s.segment e = some (.soak a d c) := by
  rw [State.rescueTakes, Bool.and_eq_true, Generator.entry_eq pointed]
  refine and_congr_right fun _ => ?_
  cases entry : (s.gen g).entryAfter 0 with
  | none => simp
  | some e =>
    cases eligible : s.eligible g other e with
    | false => simp [eligible]
    | true =>
      cases segment : s.segment e with
      | none => simp [segment]
      | some seg => cases seg <;> simp [segment, Segment.isSoak]

/-- After the rescue stage: the phase entry where it is eligible (R84). -/
theorem servePhase_phase (pointed : (s.gen g).Pointed) {h : HeadId} :
    s.servePhase g other = some (h, .phase) ↔
      (s.gen g).entryAfter 0 = some h ∧ s.eligible g other h = true := by
  rw [State.servePhase, Generator.entry_eq pointed]
  cases (s.gen g).entryAfter 0 with
  | none => simp
  | some e =>
    dsimp only
    split
    next ok =>
      simp only [Option.some.injEq, Prod.mk.injEq, and_true]
      exact ⟨fun e => e ▸ ⟨rfl, ok⟩, And.left⟩
    next bad =>
      refine iff_of_false (by simp) ?_
      rintro ⟨e, ok⟩
      exact bad (Option.some.inj e ▸ ok)

/-- Else the borrower (R85). -/
theorem servePhase_borrowed (pointed : (s.gen g).Pointed) {h : HeadId} :
    s.servePhase g other = some (h, .borrowed) ↔
      (∀ e, (s.gen g).entryAfter 0 = some e → ¬ s.eligible g other e = true) ∧ s.borrower g other = some h := by
  rw [State.servePhase, Generator.entry_eq pointed]
  cases (s.gen g).entryAfter 0 with
  | none => simp
  | some e =>
    dsimp only
    split
    next ok => simp [ok]
    next bad => simp [bad]

theorem servePhase_not_rescue {h : HeadId} : s.servePhase g other ≠ some (h, .rescue) := by
  unfold State.servePhase
  split
  · split <;> simp
  · simp

/-- A selection before the rescue stage is a selection after it, where no head in service takes the slot. -/
theorem select_eq_servePhase_iff {h : HeadId} {k : SlotKind} (kind : k ≠ .rescue) :
    s.select g other = some (h, k) ↔
      (∀ r, (s.gen g).inService = some r → ¬ s.rescueTakes g other r = true) ∧ s.servePhase g other = some (h, k) := by
  rw [State.select]
  cases (s.gen g).inService with
  | none => simp
  | some r =>
    dsimp only
    split
    next takes => simp [takes, kind.symm]
    next leaves => simp [leaves]

theorem select_rescue_iff {h : HeadId} :
    s.select g other = some (h, .rescue) ↔ (s.gen g).inService = some h ∧ s.rescueTakes g other h = true := by
  rw [State.select]
  cases (s.gen g).inService with
  | none => simpa using servePhase_not_rescue
  | some r =>
    dsimp only
    split
    next takes =>
      simp only [Option.some.injEq, Prod.mk.injEq, and_true]
      exact ⟨fun e => e ▸ ⟨rfl, takes⟩, And.left⟩
    next leaves =>
      refine iff_of_false servePhase_not_rescue ?_
      rintro ⟨e, takes⟩
      exact leaves (Option.some.inj e ▸ takes)

/-- The selection is the one of R83-R85. -/
theorem select_serves (pointed : (s.gen g).Pointed) :
    SlotServes (s.gen g) (fun h => s.eligible g other h = true) (fun h => ∃ a d c, s.segment h = some (.soak a d c))
      (s.select g other) where
  rescue h := select_rescue_iff.trans (and_congr_right fun _ => rescueTakes_iff pointed)
  phase h := by
    rw [select_eq_servePhase_iff (k := .phase) (by decide), servePhase_phase pointed]
    simp only [rescueTakes_iff pointed]
    constructor
    · rintro ⟨leaves, entry, ok⟩
      refine ⟨entry, ok, or_iff_not_imp_left.2 fun moving r service able => ?_⟩
      refine leaves r service ⟨able, fun e there _ => ?_⟩
      rw [Option.some.inj (there.symm.trans entry)]
      exact moving
    · rintro ⟨entry, ok, reason⟩
      refine ⟨fun r service ⟨able, yields⟩ => ?_, entry, ok⟩
      exact reason.elim (yields h entry ok) fun none => none r service able
  borrowed h := by
    rw [select_eq_servePhase_iff (k := .borrowed) (by decide), servePhase_borrowed pointed, borrower_iff pointed]
    simp only [rescueTakes_iff pointed]
    constructor
    · rintro ⟨leaves, closed, lent⟩
      exact ⟨closed, fun r service able => leaves r service ⟨able, fun e there ok => absurd ok (closed e there)⟩, lent⟩
    · rintro ⟨closed, none, lent⟩
      exact ⟨fun r service takes => none r service takes.1, closed, lent⟩

/-- Where the selection gives none, no head of the active table may be fed (R85). -/
theorem SlotServes.none_ok {ok soak : HeadId → Prop} (serves : SlotServes x ok soak none) (pointed : x.Pointed)
    {i : Fin 32} {h : HeadId} (inside : i.val < x.active.length) (entry : x.active.entries[i] = some h) : ¬ ok h := by
  have noRescue : ∀ r, x.inService = some r → ¬ ok r := fun r service able => by
    refine nomatch (serves.rescue r).2 ⟨service, able, fun e there allowed soaks => ?_⟩
    exact nomatch (serves.phase e).2 ⟨there, allowed, .inl soaks⟩
  have noPhase : ∀ e, x.entryAfter 0 = some e → ¬ ok e := fun e there allowed =>
    nomatch (serves.phase e).2 ⟨there, allowed, .inr noRescue⟩
  have noLater : ∀ j, 1 ≤ j → j < x.active.length → ∀ k, x.entryAfter j = some k → ¬ ok k := fun j => by
    induction j using Nat.strong_induction_on with
    | _ j ih =>
      intro low high k there allowed
      exact nomatch (serves.borrowed k).2 ⟨noPhase, noRescue, j, low, high, there, allowed,
        fun i l from_ below => ih i below from_ (by omega) l⟩
  obtain ⟨j, small, there⟩ := Generator.entry_reached pointed inside entry
  cases j with
  | zero => exact noPhase h there
  | succ j => exact noLater _ (by omega) small h there

/-- The selection depends on the rescue place, the pointer and the active table of its generator. -/
theorem SlotServes.congr {ok ok' soak soak' : HeadId → Prop} {sel : Option (HeadId × SlotKind)}
    (serves : SlotServes x ok soak sel) (service : y.inService = x.inService) (pointer : y.pointer = x.pointer)
    (active : y.active = x.active) (same : ∀ h, ok h ↔ ok' h) (soaks : ∀ h, soak h ↔ soak' h) :
    SlotServes y ok' soak' sel := by
  obtain rfl : ok = ok' := funext fun h => propext (same h)
  obtain rfl : soak = soak' := funext fun h => propext (soaks h)
  have entries : y.entryAfter = x.entryAfter := by funext j; simp only [Generator.entryAfter, pointer, active]
  obtain ⟨rescue, phase, borrowed⟩ := serves
  exact ⟨by rw [service, entries]; exact rescue, by rw [service, entries]; exact phase,
    by rw [service, entries, active]; exact borrowed⟩

end Sys2Proof.Machine
end

section
/-! PROOFS. What the stages of a slot's service do: the heads' marks and counts, the drive histories and the DRIVE
frames (R83-R92, R98). -/

namespace Sys2Proof.Machine

variable {s t u : State} {g : GenId} {h : HeadId}

/-! ### Marks on the heads -/

/-- Which deviation counters a stage counts once, and which heads' flags derated and served it sets. -/
structure SlotMarks (counted : Fin 11 → HeadId → Prop) (derates serves : HeadId → Prop) (s t : State) : Prop where
  counts : ∀ h (d : Fin 11),
    (counted d h → (t.head h).deviations[d] = min ((s.head h).deviations[d] + 1) 65535)
      ∧ (¬ counted d h → (t.head h).deviations[d] = (s.head h).deviations[d])
  derated : ∀ h, (t.head h).ctx.derated = true ↔ (s.head h).ctx.derated = true ∨ derates h
  served : ∀ h, (t.head h).ctx.served = true ↔ (s.head h).ctx.served = true ∨ serves h

section
variable {c c' : Fin 11 → HeadId → Prop} {d d' e e' : HeadId → Prop}

/-- Two stages that count nothing twice. -/
theorem SlotMarks.trans (first : SlotMarks c d e s t) (second : SlotMarks c' d' e' t u)
    (once : ∀ i h, c i h → ¬ c' i h) :
    SlotMarks (fun i h => c i h ∨ c' i h) (fun h => d h ∨ d' h) (fun h => e h ∨ e' h) s u := by
  refine ⟨fun h i => ?_, fun h => ?_, fun h => ?_⟩
  · obtain ⟨now, not_now⟩ := first.counts h i
    obtain ⟨later, not_later⟩ := second.counts h i
    refine ⟨fun some => ?_, fun none => ?_⟩
    · rcases some with one | two
      · rw [not_later (once i h one), now one]
      · rw [later two, not_now fun one => once i h one two]
    · rw [not_later fun two => none (.inr two), not_now fun one => none (.inl one)]
  · rw [second.derated, first.derated, or_assoc]
  · rw [second.served, first.served, or_assoc]

theorem SlotMarks.congr (marks : SlotMarks c d e s t) (counts : ∀ i h, c i h ↔ c' i h) (derates : ∀ h, d h ↔ d' h)
    (serves : ∀ h, e h ↔ e' h) : SlotMarks c' d' e' s t := by
  obtain rfl : c = c' := funext fun i => funext fun h => propext (counts i h)
  obtain rfl : d = d' := funext fun h => propext (derates h)
  obtain rfl : e = e' := funext fun h => propext (serves h)
  exact marks

/-- A later change that leaves counters and flags. -/
theorem SlotMarks.quietly (marks : SlotMarks c d e s t) (same : ∀ h, (u.head h).deviations = (t.head h).deviations
      ∧ (u.head h).ctx.derated = (t.head h).ctx.derated ∧ (u.head h).ctx.served = (t.head h).ctx.served) :
    SlotMarks c d e s u := by
  refine ⟨fun h i => ?_, fun h => ?_, fun h => ?_⟩
  · rw [(same h).1]; exact marks.counts h i
  · rw [(same h).2.1]; exact marks.derated h
  · rw [(same h).2.2]; exact marks.served h

end

/-- Nothing is marked. -/
def NoMark : HeadId → Prop := fun _ => False

/-- One deviation, counted for the heads given. -/
def Tally (d : Deviation) (P : HeadId → Prop) : Fin 11 → HeadId → Prop := fun i h => i = d.idx ∧ P h

theorem SlotMarks.refl (s : State) : SlotMarks (fun _ => NoMark) NoMark NoMark s s :=
  ⟨fun _ _ => ⟨False.elim, fun _ => rfl⟩, fun _ => by simp [NoMark], fun _ => by simp [NoMark]⟩

/-- What a change of one head counts and sets. -/
theorem SlotMarks.modHead {h : HeadId} {f : Head → Head} {c : Fin 11 → Prop} {d e : Prop}
    (counts : ∀ i : Fin 11, (c i → (f (s.head h)).deviations[i] = min ((s.head h).deviations[i] + 1) 65535)
      ∧ (¬ c i → (f (s.head h)).deviations[i] = (s.head h).deviations[i]))
    (derated : (f (s.head h)).ctx.derated = true ↔ (s.head h).ctx.derated = true ∨ d)
    (served : (f (s.head h)).ctx.served = true ↔ (s.head h).ctx.served = true ∨ e) :
    SlotMarks (fun i k => c i ∧ k = h) (fun k => k = h ∧ d) (fun k => k = h ∧ e) s (s.modHead h f) := by
  have each : ∀ k, (k = h ∧ (s.modHead h f).head k = f (s.head h)) ∨ (k ≠ h ∧ (s.modHead h f).head k = s.head k) :=
    fun k => by
      by_cases own : k = h
      · subst own; exact .inl ⟨rfl, State.head_modHead_same ..⟩
      · exact .inr ⟨own, State.head_modHead_other _ _ own⟩
  refine ⟨fun k i => ?_, fun k => ?_, fun k => ?_⟩ <;> rcases each k with ⟨rfl, e⟩ | ⟨other, e⟩ <;> rw [e]
  · exact ⟨fun at_ => (counts i).1 at_.1, fun away => (counts i).2 fun at_ => away ⟨at_, rfl⟩⟩
  · exact ⟨fun at_ => absurd at_.2 other, fun _ => rfl⟩
  · simpa using derated
  · simp [other]
  · simpa using served
  · simp [other]

/-- A change of one head that leaves counters and flags. -/
theorem SlotMarks.modHead_quiet {h : HeadId} {f : Head → Head} (counts : ∀ x, (f x).deviations = x.deviations)
    (derated : ∀ x, (f x).ctx.derated = x.ctx.derated) (served : ∀ x, (f x).ctx.served = x.ctx.served) :
    SlotMarks (fun _ => NoMark) NoMark NoMark s (s.modHead h f) := by
  refine (SlotMarks.modHead (c := fun _ => False) (d := False) (e := False) (fun i => ⟨False.elim, fun _ => ?_⟩)
    ?_ ?_).congr (fun _ _ => ?_) (fun _ => ?_) fun _ => ?_
  · rw [counts]
  · rw [derated]; simp
  · rw [served]; simp
  all_goals simp [NoMark]

/-- A change of one generator. -/
theorem SlotMarks.modGen (g : GenId) (f : Generator → Generator) :
    SlotMarks (fun _ => NoMark) NoMark NoMark s (s.modGen g f) :=
  (SlotMarks.refl s).quietly fun k => by rw [State.head_modGen]; exact ⟨rfl, rfl, rfl⟩

/-- What is marked before anything else is. -/
theorem SlotMarks.after_quiet {c : Fin 11 → HeadId → Prop} {d e : HeadId → Prop} (marks : SlotMarks c d e t u)
    (before : SlotMarks (fun _ => NoMark) NoMark NoMark s t) : SlotMarks c d e s u :=
  (before.trans marks fun _ _ => False.elim).congr (fun _ _ => by simp [NoMark]) (fun _ => by simp [NoMark])
    fun _ => by simp [NoMark]

/-- A count. -/
theorem SlotMarks.countDev (h : HeadId) (d : Deviation) :
    SlotMarks (Tally d fun k => k = h) NoMark NoMark s (s.countDev h d) := by
  refine (SlotMarks.modHead (c := fun i => i = d.idx) (d := False) (e := False) (fun i => ⟨fun at_ => ?_, fun away => ?_⟩)
    ?_ ?_).congr (fun _ _ => Iff.rfl) (fun _ => ?_) fun _ => ?_
  · subst at_; simp [count16]
  · have apart : d.idx.val ≠ i.val := fun e => away (Fin.ext e.symm)
    simp [Vector.getElem_set_ne, apart]
  all_goals simp [NoMark]

/-- A flag set on one head. -/
theorem SlotMarks.setDerated (h : HeadId) : SlotMarks (fun _ => NoMark) (fun k => k = h) NoMark s
    (s.modCtx h fun c => { c with derated := true }) := by
  refine (SlotMarks.modHead (c := fun _ => False) (d := True) (e := False) (fun i => ⟨False.elim, fun _ => rfl⟩)
    ?_ ?_).congr (fun _ _ => ?_) (fun _ => ?_) fun _ => ?_
  all_goals simp [NoMark]

theorem SlotMarks.setServed (h : HeadId) : SlotMarks (fun _ => NoMark) NoMark (fun k => k = h) s
    (s.modCtx h fun c => { c with served := true }) := by
  refine (SlotMarks.modHead (c := fun _ => False) (d := False) (e := True) (fun i => ⟨False.elim, fun _ => rfl⟩)
    ?_ ?_).congr (fun _ _ => ?_) (fun _ => ?_) fun _ => ?_
  all_goals simp [NoMark]

/-! ### The resolution (R98) -/

/-- A grant: the place, the count, and nothing of the histories or the other generator. -/
theorem grantRescue_effects (g : GenId) (w : HeadId) (s : State) :
    SlotMarks (Tally .rescueGranted fun h => h = w) NoMark NoMark s (grantRescue g w s)
      ∧ ((grantRescue g w s).gen g).inService = some w
      ∧ (∀ j, ((grantRescue g w s).gen j).history = (s.gen j).history)
      ∧ ∀ j, j ≠ g → (grantRescue g w s).gen j = s.gen j := by
  let v := (s.modHead w fun x =>
    { x with rescueReq := false, ctx := { x.ctx with rescueCount := count16 x.ctx.rescueCount } }).modGen g fun x =>
      { x with inService := some w, limitTimer := some s.mu.config.rescueLimit }
  have granted : grantRescue g w s = v.countDev w .rescueGranted := rfl
  have gens : ∀ j, (grantRescue g w s).gen j = v.gen j := fun j => by rw [granted, State.countDev_eq, State.gen_modHead]
  have before : SlotMarks (fun _ => NoMark) NoMark NoMark s v :=
    (SlotMarks.modGen ..).after_quiet (.modHead_quiet (fun _ => rfl) (fun _ => rfl) fun _ => rfl)
  refine ⟨(SlotMarks.countDev w .rescueGranted).after_quiet before, by rw [gens, State.gen_modGen_same], fun j => ?_,
    fun j other => ?_⟩
  · rw [gens]
    by_cases own : j = g
    · subst own; rw [State.gen_modGen_same, State.gen_modHead]
    · rw [State.gen_modGen_other _ _ own, State.gen_modHead]
  · rw [gens, State.gen_modGen_other _ _ other, State.gen_modHead]

/-- A resolution changes nothing, or grants a candidate that was not in service. -/
theorem resolveRescue_grants (g : GenId) (s : State) :
    resolveRescue g s = s ∨ ∃ w, s.candidate g w = true ∧ (s.gen g).inService ≠ some w
      ∧ SlotMarks (Tally .rescueGranted fun h => h = w) NoMark NoMark s (resolveRescue g s)
      ∧ ((resolveRescue g s).gen g).inService = some w
      ∧ (∀ j, ((resolveRescue g s).gen j).history = (s.gen j).history)
      ∧ ∀ j, j ≠ g → (resolveRescue g s).gen j = s.gen j := by
  rcases resolveRescue_cases g s with e | ⟨w, asks, free, e⟩ | ⟨k, w, asks, held, better, e⟩
  · exact .inl e
  · obtain ⟨marks, place, histories, others⟩ := grantRescue_effects g w s
    rw [e]
    exact .inr ⟨w, asks, by rw [free]; nofun, marks, place, histories, others⟩
  · let v := (s.modGen g fun x => { x with inService := none, limitTimer := none }).modHead k fun x =>
      { x with rescueReq := true }
    have left : SlotMarks (fun _ => NoMark) NoMark NoMark s v :=
      SlotMarks.after_quiet (.modHead_quiet (fun _ => rfl) (fun _ => rfl) fun _ => rfl) (.modGen ..)
    have gens : ∀ j, j ≠ g → v.gen j = s.gen j := fun j other => by
      rw [State.gen_modHead, State.gen_modGen_other _ _ other]
    have history : ∀ j, (v.gen j).history = (s.gen j).history := fun j => by
      by_cases own : j = g
      · subst own; rw [State.gen_modHead, State.gen_modGen_same]
      · rw [gens j own]
    obtain ⟨marks, place, histories, others⟩ := grantRescue_effects g w v
    have preempted : resolveRescue g s = grantRescue g w v := e
    rw [preempted]
    refine .inr ⟨w, asks, fun same => ?_, marks.after_quiet left, place, fun j => (histories j).trans (history j),
      fun j other => (others j other).trans (gens j other)⟩
    obtain rfl : k = w := Option.some.inj (held.symm.trans same)
    exact absurd better (lt_irrefl _)

/-- A resolution touches its own generator's place alone. -/
theorem resolveRescue_gen_other {j : GenId} (other : j ≠ g) : (resolveRescue g s).gen j = s.gen j := by
  rcases resolveRescue_grants g s with e | ⟨w, -, -, -, -, -, others⟩
  · rw [e]
  · exact others j other

theorem resolveRescue_history (g j : GenId) : ((resolveRescue g s).gen j).history = (s.gen j).history := by
  rcases resolveRescue_grants g s with e | ⟨w, -, -, -, -, histories, -⟩
  · rw [e]
  · exact histories j

/-- The resolution has granted head `h` the service of `g` (R98). -/
def State.Grants (s : State) (g : GenId) (h : HeadId) : Prop :=
  ((resolveRescue g s).gen g).inService = some h ∧ (s.gen g).inService ≠ some h

/-- A granted head is bound to its generator (R98). -/
theorem State.Grants.bound (granted : s.Grants g h) : (s.head h).cfg.binding = some g := by
  obtain ⟨now, before⟩ := granted
  rcases resolveRescue_grants g s with e | ⟨w, asks, -, -, place, -⟩
  · rw [e] at now; exact absurd now before
  · obtain rfl : w = h := Option.some.inj (place.symm.trans now)
    simp only [State.candidate, Bool.and_eq_true, beq_iff_eq] at asks
    exact asks.1.1

/-- RESCUE_GRANTED is counted for a head that enters service (R98). -/
theorem resolveRescue_marks (g : GenId) (s : State) :
    SlotMarks (Tally .rescueGranted (s.Grants g)) NoMark NoMark s (resolveRescue g s) := by
  rcases resolveRescue_grants g s with e | ⟨w, -, fresh, marks, place, -⟩
  · have none : ∀ h, ¬ s.Grants g h := fun h granted => by
      obtain ⟨now, before⟩ := granted
      rw [e] at now; exact before now
    rw [e]
    exact (SlotMarks.refl s).congr (fun i h => ⟨False.elim, fun at_ => none h at_.2⟩) (fun _ => Iff.rfl) fun _ => Iff.rfl
  · refine marks.congr (fun i h => and_congr_right fun _ => ?_) (fun _ => Iff.rfl) fun _ => Iff.rfl
    exact ⟨fun is => by rw [is]; exact ⟨place, fresh⟩, fun granted => Option.some.inj (granted.1.symm.trans place)⟩

/-! ### A borrowed slot (R85) -/

theorem countBorrowed_marks (sel : Option (HeadId × SlotKind)) (s : State) :
    SlotMarks (Tally .borrowed fun h => sel = some (h, .borrowed)) NoMark NoMark s (countBorrowed sel s) := by
  unfold countBorrowed
  split
  next h =>
    refine (SlotMarks.countDev h .borrowed).congr (fun i k => and_congr_right fun _ => ?_) (fun _ => Iff.rfl)
      fun _ => Iff.rfl
    simp [eq_comm]
  next other =>
    exact (SlotMarks.refl s).congr (fun i k => ⟨False.elim, fun at_ => other k at_.2⟩) (fun _ => Iff.rfl) fun _ => Iff.rfl

theorem countBorrowed_gen (sel : Option (HeadId × SlotKind)) (s : State) (j : GenId) :
    (countBorrowed sel s).gen j = s.gen j := by
  unfold countBorrowed
  split
  · rw [State.countDev_eq, State.gen_modHead]
  · rfl

/-! ### A POWER frame (R89-R91) -/

theorem State.budgetLimits_iff : s.budgetLimits g h = true ↔
    (s.gen g).budget < (s.head h).hcu.demand ∧ (s.gen g).budget < (s.head h).cfg.powerLimit := by
  simp [State.budgetLimits]

/-- What a POWER frame marks on its head where the budget alone sets the setpoint (R90). -/
def derateHead (g : GenId) (h : HeadId) (s : State) : State :=
  if s.budgetLimits g h then (s.modCtx h fun c => { c with derated := true }).countDev h .derated else s

/-- What a POWER frame marks on its head (R90). -/
def powerMarks (g : GenId) (h : HeadId) (s : State) : State :=
  if (s.head h).cfg.couplingPower ≤ s.setpoint g h then
    (derateHead g h s).modCtx h fun c => { c with served := true }
  else derateHead g h s

theorem powerEffects_eq (g : GenId) (h : HeadId) (s : State) : powerEffects g h s =
    (powerMarks g h s).modGen g fun x => { x with
      history := appendHistory x.history ⟨s.slots.number, h, (s.head h).ctx.serial, s.setpoint g h⟩ } := rfl

theorem derateHead_marks (g : GenId) (h : HeadId) (s : State) :
    SlotMarks (Tally .derated fun k => k = h ∧ s.budgetLimits g h = true) (fun k => k = h ∧ s.budgetLimits g h = true)
      NoMark s (derateHead g h s) := by
  unfold derateHead
  split
  next limits =>
    refine ((SlotMarks.setDerated h).trans (.countDev h .derated) fun _ _ => False.elim).congr (fun i k => ?_)
      (fun k => ?_) fun k => ?_
    all_goals simp [NoMark, Tally, limits]
  next free =>
    refine (SlotMarks.refl s).congr (fun i k => ?_) (fun k => ?_) fun _ => Iff.rfl
    all_goals simp [NoMark, Tally, free]

/-- A POWER frame built: DERATED counted and flagged where the budget alone sets the setpoint, served set from the
coupling test power on. -/
theorem powerEffects_marks (g : GenId) (h : HeadId) (s : State) :
    SlotMarks (Tally .derated fun k => k = h ∧ s.budgetLimits g h = true) (fun k => k = h ∧ s.budgetLimits g h = true)
      (fun k => k = h ∧ (s.head h).cfg.couplingPower ≤ s.setpoint g h) s (powerEffects g h s) := by
  rw [powerEffects_eq]
  refine SlotMarks.quietly (t := powerMarks g h s) ?_ fun k => by rw [State.head_modGen]; exact ⟨rfl, rfl, rfl⟩
  unfold powerMarks
  split
  next reaches =>
    refine ((derateHead_marks g h s).trans (.setServed h) fun _ _ _ => id).congr (fun i k => ?_) (fun k => ?_)
      fun k => ?_
    all_goals simp [NoMark, reaches]
  next below =>
    refine (derateHead_marks g h s).congr (fun _ _ => Iff.rfl) (fun _ => Iff.rfl) fun k => ?_
    simp [NoMark, below]

theorem powerMarks_gen (g : GenId) (h : HeadId) (s : State) (j : GenId) : (powerMarks g h s).gen j = s.gen j := by
  have derates : (derateHead g h s).gen j = s.gen j := by
    unfold derateHead
    split
    · rw [State.countDev_eq, State.gen_modHead, State.modCtx_eq, State.gen_modHead]
    · rfl
  unfold powerMarks
  split
  · rw [State.modCtx_eq, State.gen_modHead, derates]
  · exact derates

/-- The history of its generator takes the frame's entry (R91). -/
theorem powerEffects_gen (g : GenId) (h : HeadId) (s : State) : (powerEffects g h s).gen g =
    { s.gen g with
        history := appendHistory (s.gen g).history ⟨s.slots.number, h, (s.head h).ctx.serial, s.setpoint g h⟩ } := by
  rw [powerEffects_eq, State.gen_modGen_same, powerMarks_gen]

theorem powerEffects_gen_other {j : GenId} (h : HeadId) (other : j ≠ g) :
    (powerEffects g h s).gen j = s.gen j := by
  rw [powerEffects_eq, State.gen_modGen_other _ _ other, powerMarks_gen]

/-! ### DRIVE frames (R88, R92) -/

/-- The port sends a DRIVE frame of generator `g`, or will (R92). -/
def RingPort.Sends (rp : RingPort) (g : GenId) (f : TxFrame) : Prop := rp.port = some f ∨ (g, f) ∈ rp.drive

theorem RingPort.placeDrive_sends (rp : RingPort) (g : GenId) (f : TxFrame) : (rp.placeDrive g f).Sends g f := by
  unfold RingPort.placeDrive
  split
  next waits =>
    obtain ⟨p, mem, own⟩ := List.any_eq_true.1 waits
    exact .inr (List.mem_map.2 ⟨p, mem, if_pos own⟩)
  split
  · exact .inl rfl
  · exact .inr (List.mem_append_right _ (.head _))

/-- A frame placed for one generator leaves the frame of the other (R92). -/
theorem RingPort.Sends.placeDrive {rp : RingPort} {j : GenId} {f : TxFrame} (sends : rp.Sends j f) (other : j ≠ g)
    (f' : TxFrame) : (rp.placeDrive g f').Sends j f := by
  have busy : rp.port ≠ none ∨ rp.drive ≠ [] := by
    rcases sends with port | waits
    · exact .inl (by rw [port]; nofun)
    · exact .inr (List.ne_nil_of_mem waits)
  unfold RingPort.placeDrive
  split
  · refine sends.imp id fun waits => List.mem_map.2 ⟨(j, f), waits, if_neg ?_⟩
    simpa using other
  split
  next free => exact absurd free (waits_of busy)
  · exact sends.imp id (List.mem_append_left _)

/-- The DRIVE frame built for a generator (R88, R179). -/
def State.driveFrame (s : State) (g : GenId) (served : Option HeadId) : TxFrame :=
  ⟨mkFrame (byte (s.mu.config.station g)) s.ownStation 8 (s.driveFor g served), false⟩

/-- Without a station nothing is built. -/
theorem buildDrive_of_no_station (none : s.mu.config.station g = 0) (served : Option HeadId) :
    buildDrive g served s = s := if_pos none

/-- With one, a head that is served gets its POWER frame; a head is served only where the generator is READY. -/
theorem buildDrive_power (station : s.mu.config.station g ≠ 0) (ready : (s.gen g).state = .ready) (h : HeadId) :
    buildDrive g (some h) s =
      (powerEffects g h s).modRp fun rp => rp.placeDrive g (s.driveFrame g (some h)) := by
  refine (if_neg station).trans ?_
  dsimp only
  rw [ready]
  rfl

/-- With one and no head, the frame alone. -/
theorem buildDrive_idle (station : s.mu.config.station g ≠ 0) :
    buildDrive g none s = s.modRp fun rp => rp.placeDrive g (s.driveFrame g none) := by
  refine (if_neg station).trans ?_
  dsimp only
  cases (s.gen g).state <;> rfl

/-- The payload of a POWER frame (R179). -/
theorem driveFor_power (ready : (s.gen g).state = .ready) (h : HeadId) :
    s.driveFor g (some h) = [s.slots.number, 3, byte h.val] ++ le16 (s.setpoint g h) := by
  unfold State.driveFor
  rw [ready]
  rfl

/-- The payload of a frame without power, by the generator's state (R88, R179). -/
theorem driveFor_idle : s.driveFor g none =
    [s.slots.number, (match (s.gen g).state with | .ready => 2 | .waking => 1 | _ => 0), 255, 0, 0] := by
  unfold State.driveFor
  cases (s.gen g).state <;> rfl

/-- The entry a DRIVE frame makes in the drive history: none without a station or a head that is served (R91). -/
def State.driveEntry (s : State) (g : GenId) (served : Option HeadId) : Option DriveEntry :=
  if s.mu.config.station g = 0 then none
  else served.map fun h => ⟨s.slots.number, h, (s.head h).ctx.serial, s.setpoint g h⟩

/-- A generator with an entry, if any, taken into its drive history. -/
def Generator.fed (x : Generator) (e : Option DriveEntry) : Generator :=
  { x with history := e.elim x.history (appendHistory x.history) }

section
variable {served : Option HeadId}

/-- What building a frame does to its generator: the history takes a POWER frame's entry. -/
theorem buildDrive_gen (ready : served ≠ none → (s.gen g).state = .ready) :
    (buildDrive g served s).gen g = (s.gen g).fed (s.driveEntry g served) := by
  unfold State.driveEntry
  by_cases station : s.mu.config.station g = 0
  · rw [buildDrive_of_no_station station, if_pos station]; rfl
  · rw [if_neg station]
    cases served with
    | none => rw [buildDrive_idle station]; rfl
    | some h => rw [buildDrive_power station (ready nofun), State.gen_modRp, powerEffects_gen]; rfl

theorem buildDrive_gen_other {j : GenId} (ready : served ≠ none → (s.gen g).state = .ready) (other : j ≠ g) :
    (buildDrive g served s).gen j = s.gen j := by
  by_cases station : s.mu.config.station g = 0
  · rw [buildDrive_of_no_station station]
  · cases served with
    | none => rw [buildDrive_idle station]; rfl
    | some h => rw [buildDrive_power station (ready nofun), State.gen_modRp, powerEffects_gen_other _ other]

/-- Building a frame marks the head it powers. -/
theorem buildDrive_marks (ready : served ≠ none → (s.gen g).state = .ready) :
    SlotMarks
      (Tally .derated fun h => (served = some h ∧ s.mu.config.station g ≠ 0) ∧ s.budgetLimits g h = true)
      (fun h => (served = some h ∧ s.mu.config.station g ≠ 0) ∧ s.budgetLimits g h = true)
      (fun h => (served = some h ∧ s.mu.config.station g ≠ 0) ∧ (s.head h).cfg.couplingPower ≤ s.setpoint g h)
      s (buildDrive g served s) := by
  have idle : ∀ {u : State}, (∀ h, u.head h = s.head h) → (∀ h, ¬ (served = some h ∧ s.mu.config.station g ≠ 0)) →
      SlotMarks
        (Tally .derated fun h => (served = some h ∧ s.mu.config.station g ≠ 0) ∧ s.budgetLimits g h = true)
        (fun h => (served = some h ∧ s.mu.config.station g ≠ 0) ∧ s.budgetLimits g h = true)
        (fun h => (served = some h ∧ s.mu.config.station g ≠ 0) ∧ (s.head h).cfg.couplingPower ≤ s.setpoint g h)
        s u := fun {u} same away => by
    refine ((SlotMarks.refl s).quietly fun h => by rw [same]; exact ⟨rfl, rfl, rfl⟩).congr (fun i h => ?_)
      (fun h => ?_) fun h => ?_
    all_goals simp [NoMark, Tally, away h]
  by_cases station : s.mu.config.station g = 0
  · rw [buildDrive_of_no_station station]
    exact idle (fun _ => rfl) fun h both => both.2 station
  · cases served with
    | none =>
      rw [buildDrive_idle station]
      exact idle (fun _ => rfl) fun h both => nomatch both.1
    | some k =>
      rw [buildDrive_power station (ready nofun)]
      refine SlotMarks.quietly (t := powerEffects g k s) ?_ fun _ => ⟨rfl, rfl, rfl⟩
      refine (powerEffects_marks g k s).congr (fun i h => ?_) (fun h => ?_) fun h => ?_
      · refine and_congr_right fun _ => ?_
        constructor
        · rintro ⟨rfl, limits⟩; exact ⟨⟨rfl, station⟩, limits⟩
        · rintro ⟨⟨e, -⟩, limits⟩; cases e; exact ⟨rfl, limits⟩
      all_goals
        constructor
        · rintro ⟨rfl, reaches⟩; exact ⟨⟨rfl, station⟩, reaches⟩
        · rintro ⟨⟨e, -⟩, reaches⟩; cases e; exact ⟨rfl, reaches⟩

theorem powerEffects_rp (g : GenId) (h : HeadId) (s : State) : (powerEffects g h s).rp = s.rp := by
  rw [powerEffects_eq, State.modGen_rp]
  unfold powerMarks derateHead
  split <;> split <;> rfl

/-- The frame built is sent, or waits (R88, R92). -/
theorem buildDrive_sends (ready : served ≠ none → (s.gen g).state = .ready) (station : s.mu.config.station g ≠ 0) :
    (buildDrive g served s).rp.Sends g (s.driveFrame g served) := by
  cases served with
  | none => rw [buildDrive_idle station]; exact RingPort.placeDrive_sends ..
  | some h => rw [buildDrive_power station (ready nofun)]; exact RingPort.placeDrive_sends ..

/-- The frame of the other generator stays (R92). -/
theorem buildDrive_keeps_sent {j : GenId} {f : TxFrame} (ready : served ≠ none → (s.gen g).state = .ready)
    (sends : s.rp.Sends j f) (other : j ≠ g) : (buildDrive g served s).rp.Sends j f := by
  by_cases station : s.mu.config.station g = 0
  · rw [buildDrive_of_no_station station]; exact sends
  · cases served with
    | none => rw [buildDrive_idle station]; exact sends.placeDrive other _
    | some h =>
      rw [buildDrive_power station (ready nofun), State.modRp, powerEffects_rp]
      exact sends.placeDrive other _

end

end Sys2Proof.Machine
end

section
/-! PROOFS. A slot's service, whole: whom it feeds, what it marks and which frames it sends (R74, R82-R92, R98). -/

namespace Sys2Proof.Machine

variable {s t u v : State} {g : GenId} {h : HeadId} {other : Option HeadId}

theorem exists_gen {P : GenId → Prop} : (∃ g, P g) ↔ P .a ∨ P .b :=
  ⟨fun ⟨g, p⟩ => by cases g; exacts [.inl p, .inr p], fun p => p.elim (fun a => ⟨.a, a⟩) fun b => ⟨.b, b⟩⟩

/-! ### What the selection and the frames read -/

/-- The part as the selection and the DRIVE frames see it (R82, R86, R89). -/
structure SameInputs (s t : State) : Prop where
  cfg : ∀ h, (t.head h).cfg = (s.head h).cfg
  hcu : ∀ h, (t.head h).hcu = (s.head h).hcu
  inputs : ∀ h, (t.head h).inputs = (s.head h).inputs
  state : ∀ h, (t.head h).ctx.state = (s.head h).ctx.state
  serial : ∀ h, (t.head h).ctx.serial = (s.head h).ctx.serial
  recipe : ∀ h, (t.head h).ctx.profile = (s.head h).ctx.profile
  segIndex : ∀ h, (t.head h).ctx.segIndex = (s.head h).ctx.segIndex
  gen : ∀ g, (t.gen g).state = (s.gen g).state
  budget : ∀ g, (t.gen g).budget = (s.gen g).budget
  profiles : t.profiles = s.profiles
  mu : t.mu = s.mu
  interlocks : t.interlocks = s.interlocks
  exclusions : t.slots.exclusions = s.slots.exclusions
  station : t.rp.station = s.rp.station

theorem SameInputs.trans (a : SameInputs s t) (b : SameInputs t u) : SameInputs s u where
  cfg h := (b.cfg h).trans (a.cfg h)
  hcu h := (b.hcu h).trans (a.hcu h)
  inputs h := (b.inputs h).trans (a.inputs h)
  state h := (b.state h).trans (a.state h)
  serial h := (b.serial h).trans (a.serial h)
  recipe h := (b.recipe h).trans (a.recipe h)
  segIndex h := (b.segIndex h).trans (a.segIndex h)
  gen g := (b.gen g).trans (a.gen g)
  budget g := (b.budget g).trans (a.budget g)
  profiles := b.profiles.trans a.profiles
  mu := b.mu.trans a.mu
  interlocks := b.interlocks.trans a.interlocks
  exclusions := b.exclusions.trans a.exclusions
  station := b.station.trans a.station

/-- The service of a slot leaves them. -/
theorem Scheduled.inputs (k : Scheduled s t) : SameInputs s t where
  cfg h := by rw [k.heads h]; rfl
  hcu h := by rw [k.heads h]; rfl
  inputs h := by rw [k.heads h]; rfl
  state h := by rw [k.heads h]; rfl
  serial h := by rw [k.heads h]; rfl
  recipe h := by rw [k.heads h]; rfl
  segIndex h := by rw [k.heads h]; rfl
  gen g := by rw [k.gens g]; rfl
  budget g := by rw [k.gens g]; rfl
  profiles := k.profiles
  mu := k.mu
  interlocks := k.interlocks
  exclusions := by rw [k.slots]
  station := k.station

/-- The advance of the rounds leaves them. -/
theorem slotRounds_inputs (s : State) : SameInputs s (slotRounds s) where
  cfg h := by rw [slotRounds_head]
  hcu h := by rw [slotRounds_head]
  inputs h := by rw [slotRounds_head]
  state h := by rw [slotRounds_head]
  serial h := by rw [slotRounds_head]
  recipe h := by rw [slotRounds_head]
  segIndex h := by rw [slotRounds_head]
  gen g := by rw [slotRounds_gen, Generator.advanced_frame]
  budget g := by rw [slotRounds_gen, Generator.advanced_frame]
  profiles := by rw [slotRounds_eq]
  mu := by rw [slotRounds_eq]
  interlocks := by rw [slotRounds_eq]
  exclusions := by rw [slotRounds_eq]
  station := by
    rw [slotRounds_eq]
    exact (loadNoticed_frame s _ .b).1.trans (loadNoticed_frame s _ .a).1

theorem SameInputs.segment (i : SameInputs s t) (h : HeadId) : t.segment h = s.segment h := by
  simp only [State.segment, State.recipe, State.profile, i.recipe, i.segIndex, i.profiles]

theorem SameInputs.eligible (i : SameInputs s t) (g : GenId) (other : Option HeadId) (h : HeadId) :
    t.eligible g other h = s.eligible g other h := by
  simp only [State.eligible, State.paired, State.interlocksOk, State.verdict, State.latched, State.group, i.segment, i.cfg,
    i.hcu, i.inputs, i.state, i.gen, i.budget, i.interlocks, i.exclusions]

theorem SameInputs.setpoint (i : SameInputs s t) (g : GenId) (h : HeadId) : t.setpoint g h = s.setpoint g h := by
  simp only [State.setpoint, i.cfg, i.hcu, i.budget]

theorem SameInputs.budgetLimits (i : SameInputs s t) (g : GenId) (h : HeadId) :
    t.budgetLimits g h = s.budgetLimits g h := by
  simp only [State.budgetLimits, i.cfg, i.hcu, i.budget]

/-! ### The stages of the service -/

/-- The selection for A (R83-R85). -/
def slotChoiceA (v : State) : Option (HeadId × SlotKind) := (resolveRescue .a v).select .a none

/-- The part after A has been served. -/
def afterA (v : State) : State := countBorrowed (slotChoiceA v) (resolveRescue .a v)

/-- The selection for B, after A's (R87). -/
def slotChoiceB (v : State) : Option (HeadId × SlotKind) :=
  (resolveRescue .b (afterA v)).select .b ((slotChoiceA v).map Prod.fst)

/-- The part after both have been served. -/
def afterB (v : State) : State := countBorrowed (slotChoiceB v) (resolveRescue .b (afterA v))

/-- The selection for each generator. -/
def slotChoice (v : State) : GenId → Option (HeadId × SlotKind)
  | .a => slotChoiceA v
  | .b => slotChoiceB v

/-- The head that a generator serves. -/
def slotServed (v : State) (g : GenId) : Option HeadId := (slotChoice v g).map Prod.fst

/-- The head that bars others from a generator's selection: A's, from B's (R87). -/
def slotBar (v : State) : GenId → Option HeadId
  | .a => none
  | .b => slotServed v .a

/-- The part after A's DRIVE frame has been built. -/
def afterFrameA (v : State) : State := buildDrive .a (slotServed v .a) (afterB v)

theorem slotService_eq (v : State) : slotService v = buildDrive .b (slotServed v .b) (afterFrameA v) := rfl

theorem afterA_scheduled (v : State) : Scheduled v (afterA v) :=
  (countBorrowed_scheduled ..).after (resolveRescue_scheduled ..)

theorem resolvedB_scheduled (v : State) : Scheduled v (resolveRescue .b (afterA v)) :=
  (resolveRescue_scheduled ..).after (afterA_scheduled v)

theorem afterB_scheduled (v : State) : Scheduled v (afterB v) :=
  (countBorrowed_scheduled ..).after (resolvedB_scheduled v)

theorem afterFrameA_scheduled (v : State) : Scheduled v (afterFrameA v) :=
  (buildDrive_scheduled ..).after (afterB_scheduled v)

/-- A head that is served is eligible (R82, R87). -/
theorem slotChoice_eligible {k : SlotKind} (e : slotChoice v g = some (h, k)) : v.eligible g (slotBar v g) h = true := by
  cases g with
  | a => rw [← (resolveRescue_scheduled .a v).inputs.eligible]; exact select_eligible e
  | b => rw [← (resolvedB_scheduled v).inputs.eligible]; exact select_eligible e

theorem slotServed_eligible (e : slotServed v g = some h) : v.eligible g (slotBar v g) h = true := by
  obtain ⟨⟨k, kind⟩, choice, rfl⟩ := Option.map_eq_some_iff.1 e
  exact slotChoice_eligible choice

theorem eligible_bound (e : v.eligible g other h = true) : (v.head h).cfg.binding = some g :=
  ((eligible_iff ..).1 e).1

/-- A head is served only by a READY generator (R82). -/
theorem slotServed_ready (some' : slotServed v g ≠ none) : (v.gen g).state = .ready := by
  obtain ⟨h, e⟩ := Option.ne_none_iff_exists'.1 some'
  obtain ⟨-, -, -, -, -, -, -, ready, -⟩ := (eligible_iff ..).1 (slotServed_eligible e)
  exact ready

theorem afterB_ready (some' : slotServed v g ≠ none) : ((afterB v).gen g).state = .ready :=
  ((afterB_scheduled v).inputs.gen g).trans (slotServed_ready some')

theorem afterFrameA_ready (some' : slotServed v g ≠ none) : ((afterFrameA v).gen g).state = .ready :=
  ((afterFrameA_scheduled v).inputs.gen g).trans (slotServed_ready some')

/-! ### The generators, stage by stage -/

/-- A generator after the service, from the part after both selections. -/
theorem slotService_gen (v : State) (g : GenId) :
    (slotService v).gen g = ((afterB v).gen g).fed (v.driveEntry g (slotServed v g)) := by
  have entry : ∀ {w : State}, Scheduled v w → w.driveEntry g (slotServed v g) = v.driveEntry g (slotServed v g) :=
    fun {w} k => by simp only [State.driveEntry, k.mu, k.slots, k.inputs.serial, k.inputs.setpoint]
  rw [slotService_eq]
  cases g with
  | a =>
    rw [buildDrive_gen_other afterFrameA_ready (by decide), afterFrameA, buildDrive_gen afterB_ready,
      entry (afterB_scheduled v)]
  | b =>
    rw [buildDrive_gen afterFrameA_ready, afterFrameA, buildDrive_gen_other afterB_ready (by decide)]
    exact congrArg _ (entry (afterFrameA_scheduled v))

/-- The rescue place after the service is that of the generator's resolution. -/
theorem afterB_gen_a (v : State) : (afterB v).gen .a = (resolveRescue .a v).gen .a := by
  rw [afterB, countBorrowed_gen, resolveRescue_gen_other (by decide), afterA, countBorrowed_gen]

theorem afterB_gen_b (v : State) : (afterB v).gen .b = (resolveRescue .b (afterA v)).gen .b := by
  rw [afterB, countBorrowed_gen]

theorem afterA_gen_b (v : State) : (afterA v).gen .b = v.gen .b := by
  rw [afterA, countBorrowed_gen, resolveRescue_gen_other (by decide)]

theorem afterB_history (v : State) (g : GenId) : ((afterB v).gen g).history = (v.gen g).history := by
  cases g with
  | a => rw [afterB_gen_a, resolveRescue_history]
  | b => rw [afterB_gen_b, resolveRescue_history, afterA_gen_b]

theorem slotService_inService (v : State) (g : GenId) :
    ((slotService v).gen g).inService = ((afterB v).gen g).inService := by
  rw [slotService_gen]; rfl

/-! ### Whom the slot feeds (R83-R85) -/

/-- The selection for each generator is the one of R83-R85, on the part before the service. -/
theorem slotService_serves (pointed : ∀ g, (v.gen g).Pointed) (g : GenId) :
    SlotServes ((slotService v).gen g) (fun h => v.eligible g (slotBar v g) h = true)
      (fun h => ∃ a d c, v.segment h = some (.soak a d c)) (slotChoice v g) := by
  have of_stage : ∀ {w : State} {sel}, Scheduled v w → (afterB v).gen g = w.gen g →
      w.select g (slotBar v g) = sel →
      SlotServes ((slotService v).gen g) (fun h => v.eligible g (slotBar v g) h = true)
        (fun h => ∃ a d c, v.segment h = some (.soak a d c)) sel := fun {w sel} k place e => by
    have given := k.gens g
    have after := (slotService_scheduled v).gens g
    have pointer : (w.gen g).Pointed := by rw [given]; exact pointed g
    rw [← e]
    refine (select_serves pointer).congr ?_ ?_ ?_ (fun h => ?_) fun h => ?_
    · rw [slotService_inService, place]
    · rw [after, given]; rfl
    · rw [after, given]; rfl
    · rw [k.inputs.eligible]
    · rw [k.inputs.segment]
  cases g with
  | a => exact of_stage (resolveRescue_scheduled .a v) (afterB_gen_a v) rfl
  | b => exact of_stage (resolvedB_scheduled v) (afterB_gen_b v) rfl

/-! ### What the service marks (R85, R90, R98) -/

/-- The slot powers head `h` from `g`. -/
def SlotDrives (v : State) (g : GenId) (h : HeadId) : Prop := slotServed v g = some h ∧ v.mu.config.station g ≠ 0

/-- Head `h` is powered from `g` at a setpoint that the budget alone sets (R90). -/
def SlotDerates (v : State) (g : GenId) (h : HeadId) : Prop := SlotDrives v g h ∧ v.budgetLimits g h = true

/-- Head `h` enters the service of `g` in this slot. -/
def SlotGrants (v : State) (g : GenId) (h : HeadId) : Prop :=
  ((slotService v).gen g).inService = some h ∧ (v.gen g).inService ≠ some h

theorem slotGrants_a : SlotGrants v .a h ↔ v.Grants .a h := by
  rw [SlotGrants, State.Grants, slotService_inService, afterB_gen_a]

theorem slotGrants_b : SlotGrants v .b h ↔ (afterA v).Grants .b h := by
  rw [SlotGrants, State.Grants, slotService_inService, afterB_gen_b, afterA_gen_b]

/-- Tallies of different deviations count nothing twice. -/
theorem Tally.apart {d d' : Deviation} {P Q : HeadId → Prop} (other : d.idx ≠ d'.idx) (i : Fin 11) (h : HeadId)
    (one : Tally d P i h) : ¬ Tally d' Q i h := fun two => other (one.1.symm.trans two.1)

/-- Nor do tallies of one deviation for heads of A and heads of B. -/
theorem Tally.of_bound {d : Deviation} {P Q : HeadId → Prop} (ofA : ∀ h, P h → (v.head h).cfg.binding = some .a)
    (ofB : ∀ h, Q h → (v.head h).cfg.binding = some .b) (i : Fin 11) (h : HeadId) (one : Tally d P i h) :
    ¬ Tally d Q i h := fun two => by
  have both := (ofA h one.2).symm.trans (ofB h two.2)
  exact absurd both (by decide)

/-- The marks of a frame built in the state `w`, on the part before the service. -/
theorem buildDrive_slotMarks {w : State} (k : Scheduled v w) (g : GenId) :
    SlotMarks (Tally .derated (SlotDerates v g)) (SlotDerates v g) (fun h => SlotDrives v g h ∧ (v.head h).cfg.couplingPower ≤ v.setpoint g h) w
      (buildDrive g (slotServed v g) w) := by
  refine (buildDrive_marks fun some' => (k.inputs.gen g).trans (slotServed_ready some')).congr (fun i h => ?_)
    (fun h => ?_) fun h => ?_
  all_goals simp only [Tally, SlotDerates, SlotDrives, k.mu, k.inputs.budgetLimits, k.inputs.setpoint, k.inputs.cfg]

/-- What a slot's service counts for a head (R85, R90, R98). -/
def SlotCounts (v : State) (i : Fin 11) (h : HeadId) : Prop :=
  Tally .rescueGranted (fun h => ∃ g, SlotGrants v g h) i h
    ∨ Tally .borrowed (fun h => ∃ g, slotChoice v g = some (h, .borrowed)) i h
    ∨ Tally .derated (fun h => ∃ g, SlotDerates v g h) i h

/-- What a slot's service counts and sets: each head is bound to one generator, so nothing is counted twice. -/
theorem slotService_marks (v : State) :
    SlotMarks (SlotCounts v) (fun h => ∃ g, SlotDerates v g h)
      (fun h => ∃ g, SlotDrives v g h ∧ (v.head h).cfg.couplingPower ≤ v.setpoint g h) v (slotService v) := by
  have grantA := resolveRescue_marks .a v
  have borrowA := countBorrowed_marks (slotChoiceA v) (resolveRescue .a v)
  have grantB := resolveRescue_marks .b (afterA v)
  have borrowB := countBorrowed_marks (slotChoiceB v) (resolveRescue .b (afterA v))
  have frameA := buildDrive_slotMarks (afterB_scheduled v) .a
  have frameB := buildDrive_slotMarks (afterFrameA_scheduled v) .b
  have granted : ∀ h, (afterA v).Grants .b h → (v.head h).cfg.binding = some .b := fun h grants => by
    rw [← (afterA_scheduled v).inputs.cfg]; exact grants.bound
  have borrowed : ∀ g h, slotChoice v g = some (h, .borrowed) → (v.head h).cfg.binding = some g :=
    fun g h e => eligible_bound (slotChoice_eligible e)
  have driven : ∀ g h, SlotDerates v g h → (v.head h).cfg.binding = some g :=
    fun g h drives => eligible_bound (slotServed_eligible drives.1.1)
  have servedA := grantA.trans borrowA (Tally.apart (by decide))
  have resolvedB := servedA.trans grantB fun i h => Or.rec
    (Tally.of_bound (fun _ => State.Grants.bound) granted i h) (Tally.apart (by decide) i h)
  have servedB := resolvedB.trans borrowB fun i h => Or.rec
    (Or.rec (Tally.apart (by decide) i h) (Tally.of_bound (borrowed .a) (borrowed .b) i h)) (Tally.apart (by decide) i h)
  have framedA := servedB.trans frameA fun i h => Or.rec (Or.rec (Or.rec (Tally.apart (by decide) i h)
    (Tally.apart (by decide) i h)) (Tally.apart (by decide) i h)) (Tally.apart (by decide) i h)
  have framedB := framedA.trans frameB fun i h => Or.rec (Or.rec (Or.rec (Or.rec (Tally.apart (by decide) i h)
    (Tally.apart (by decide) i h)) (Tally.apart (by decide) i h)) (Tally.apart (by decide) i h))
    (Tally.of_bound (driven .a) (driven .b) i h)
  refine framedB.congr (fun i h => ?_) (fun h => ?_) fun h => ?_
  · simp only [SlotCounts, Tally, exists_gen, slotGrants_a, slotGrants_b]
    tauto
  all_goals simp only [exists_gen, NoMark, false_or]

/-! ### The frames (R88, R92) -/

/-- Each generator with a station has its DRIVE frame sent, or waiting. -/
theorem slotService_sends (station : v.mu.config.station g ≠ 0) :
    (slotService v).rp.Sends g (v.driveFrame g (slotServed v g)) := by
  have frame : ∀ {w : State}, Scheduled v w → w.driveFrame g (slotServed v g) = v.driveFrame g (slotServed v g) :=
    fun {w} k => by
      simp only [State.driveFrame, State.driveFor, State.ownStation, k.mu, k.station, k.inputs.gen, k.slots,
        k.inputs.setpoint]
  have there : ∀ {w : State}, Scheduled v w → w.mu.config.station g ≠ 0 := fun k => by rw [k.mu]; exact station
  rw [slotService_eq]
  cases g with
  | a =>
    have sent := buildDrive_sends (s := afterB v) (served := slotServed v .a) afterB_ready (there (afterB_scheduled v))
    rw [frame (afterB_scheduled v)] at sent
    exact buildDrive_keeps_sent afterFrameA_ready sent (by decide)
  | b =>
    rw [← frame (afterFrameA_scheduled v)]
    exact buildDrive_sends afterFrameA_ready (there (afterFrameA_scheduled v))

end Sys2Proof.Machine
end

section
/-! PROOFS. The law of R82 at a slot expiry, with what is counted (R82-R92, R98). -/

namespace Sys2Proof.Machine

variable {s t u v : State} {g : GenId} {h : HeadId}

/-- What R82 asks of a head and its generator, beside the exclusion list. -/
def State.Feedable (s : State) (g : GenId) (h : HeadId) : Prop :=
  (s.head h).cfg.binding = some g ∧ (s.head h).ctx.state = .running
    ∧ (∃ seg, s.segment h = some seg ∧ seg.heats = true) ∧ 1 ≤ (s.head h).hcu.demand
    ∧ 1 ≤ (s.head h).cfg.powerLimit ∧ s.verdict h = true ∧ s.latched h = false
    ∧ (s.gen g).state = .ready ∧ 1 ≤ (s.gen g).budget

/-- Head `h` is barred from B by the head `served` that A serves in the same slot (R87). -/
def State.Barred (s : State) (served : Option HeadId) (g : GenId) (h : HeadId) : Prop :=
  g = .b ∧ ∃ k, served = some k ∧ ∃ q ∈ s.slots.exclusions, samePair q (k, h) = true

theorem paired_iff {k : HeadId} : s.paired k h = true ↔ ∃ q ∈ s.slots.exclusions, samePair q (k, h) = true :=
  List.any_eq_true

/-- Eligibility in a slot is R82's law and R87's bar. -/
theorem eligible_slotBar_iff : s.eligible g (slotBar v g) h = true ↔
    s.Feedable g h ∧ ¬ s.Barred (slotServed v .a) g h := by
  have bar : (∀ k, slotBar v g = some k → s.paired k h = false) ↔ ¬ s.Barred (slotServed v .a) g h := by
    cases g with
    | a => exact iff_of_true nofun fun barred => nomatch barred.1
    | b =>
      constructor
      · rintro clear ⟨-, k, served, pair⟩
        exact absurd (paired_iff.2 pair) (Bool.eq_false_iff.1 (clear k served))
      · intro free k served
        exact Bool.eq_false_iff.2 fun pair => free ⟨rfl, k, served, paired_iff.1 pair⟩
  rw [eligible_iff, bar, State.Feedable]
  tauto

/-- A feedable head is driven at 1 watt at least (R89). -/
theorem State.Feedable.setpoint_pos (feeds : s.Feedable g h) : 1 ≤ s.setpoint g h := by
  obtain ⟨-, -, -, demand, limit, -, -, -, budget⟩ := feeds
  exact le_min demand (le_min limit budget)

/-- The frame of a slot, on the part before the rounds advanced. -/
theorem driveFrame_of_inputs (i : SameInputs s v) (served : Option HeadId) : v.driveFrame g served =
    ⟨mkFrame (byte (s.mu.config.station g)) s.ownStation 8 (v.driveFor g served), false⟩ := by
  simp only [State.driveFrame, State.ownStation, i.mu, i.station]

end Sys2Proof.Machine

namespace Sys2Proof.Proofs

open Sys2Proof.Machine

/-- Settles O50: the selection by `slotService_serves`, the histories by `slotService_gen`, the frames by
`slotService_sends`, and the counts and flags by `slotService_marks`, each read on the part before the rounds. -/
theorem powerFramesOnlyToEligibleHeads : Obligations.PowerFramesOnlyToEligibleHeads := by
  intro s running due
  let v := slotRounds s
  have i : SameInputs s v := slotRounds_inputs s
  refine ⟨slotService v, slotChoice v, exec_slotExpiry running due, ?_⟩
  intro eligible served barred soak watts driven derates
  have ok : ∀ g h, v.eligible g (slotBar v g) h = true ↔ eligible g h ∧ ¬ barred g h := fun g h => by
    rw [i.eligible]; exact eligible_slotBar_iff
  have setpoint : ∀ g h, v.setpoint g h = watts g h := i.setpoint
  have pointed : ∀ g, (v.gen g).Pointed := fun g => by
    rw [slotRounds_gen]; exact Generator.advanced_pointed _
  have number : v.slots.number = s.slots.number + 1 := by simp only [v, slotRounds_eq]
  have history : ∀ g, (v.gen g).history = (s.gen g).history := fun g => by
    rw [slotRounds_gen, Generator.advanced_frame]
  have place : ∀ g, (v.gen g).inService = (s.gen g).inService := fun g => by
    rw [slotRounds_gen, Generator.advanced_frame]
  have head : ∀ h, v.head h = s.head h := slotRounds_head s
  have fed : ∀ g, ((slotService v).gen g).history = (v.driveEntry g (served g)).elim (s.gen g).history
      (appendHistory (s.gen g).history) := fun g => by
    rw [slotService_gen, Generator.fed, afterB_history, history]; rfl
  refine ⟨fun g => ?_, fun h => ?_⟩
  · have serves := (slotService_serves pointed g).congr rfl rfl rfl (ok g) fun h => by rw [i.segment]
    refine ⟨serves, fun h e => ?_, fun none' j h inside entry able => ?_, fun bare => ?_, fun station => ?_⟩
    · obtain ⟨able, free⟩ := (ok g h).1 (slotServed_eligible e)
      exact ⟨able, free, State.Feedable.setpoint_pos able⟩
    · have nobody : slotChoice v g = none := Option.map_eq_none_iff.1 none'
      rw [nobody] at serves
      have after : ((slotService v).gen g).Pointed := by
        rw [(slotService_scheduled v).gens g]; exact pointed g
      exact not_not.1 fun free => serves.none_ok after inside entry ⟨able, free⟩
    · rw [fed, State.driveEntry, if_pos (by rw [i.mu]; exact bare)]; rfl
    · have there : v.mu.config.station g ≠ 0 := by rw [i.mu]; exact station
      have sent := slotService_sends there
      rw [driveFrame_of_inputs i] at sent
      have entry : v.driveEntry g (served g) =
          (served g).map fun h => ⟨v.slots.number, h, (v.head h).ctx.serial, v.setpoint g h⟩ := if_neg there
      intro frame sends
      split
      next h e =>
        have selected : slotServed v g = some h := e
        have ready := slotServed_ready (v := v) (g := g) (by rw [selected]; nofun)
        rw [selected, driveFor_power ready, number, setpoint] at sent
        rw [fed, entry, e, number, Option.map_some, setpoint, head]
        exact ⟨sent, rfl⟩
      next e =>
        have idle : slotServed v g = none := e
        rw [idle, driveFor_idle, number, i.gen] at sent
        rw [fed, entry, e]
        exact ⟨sent, rfl⟩
  · have marks := slotService_marks v
    have drives : ∀ g, SlotDrives v g h ↔ driven g h := fun g => by rw [SlotDrives, i.mu]; rfl
    have limited : (∃ g, SlotDerates v g h) ↔ derates h := by
      simp only [SlotDerates, drives, i.budgetLimits, State.budgetLimits_iff]; rfl
    refine ⟨?_, ?_, fun d => ?_⟩
    · rw [marks.derated, head, limited]
    · rw [marks.served, head]
      simp only [drives, setpoint]
    · intro counted
      have same : SlotCounts v d h ↔ counted := by
        simp only [SlotCounts, Tally, SlotGrants, place, limited]; rfl
      obtain ⟨one, none⟩ := marks.counts h d
      rw [head, same] at one none
      exact ⟨one, none⟩

end Sys2Proof.Proofs
end

section
/-! PROOFS. The expiries of a generator's timers (R114-R116, R122, R124). -/

namespace Sys2Proof.Proofs

open Sys2Proof.Machine

/-- Settles O42: a wake or status expiry is the generator's fault, whole (`faultGenerator_faulted`); an idle expiry is the
branch of the model, its notice written out. -/
theorem generatorTimerExpiries : Obligations.GeneratorTimerExpiries := by
  refine ⟨fun s g c cause running expires => ⟨faultGenerator g cause s, ?_, faultGenerator_faulted s g cause⟩,
    fun s g running ready left => ?_⟩
  · rcases expires with ⟨rfl, rfl, waking, left⟩ | ⟨rfl, rfl, ready, left⟩
    · exact (live_of_running (wakeExpiry g) running).trans
        (congrArg Host.Outcome.next (if_pos ⟨waking, by rw [left]; rfl⟩))
    · exact (live_of_running (statusExpiry g) running).trans
        (congrArg Host.Outcome.next (if_pos ⟨ready, by rw [left]; rfl⟩))
  · refine (live_of_running (idleExpiry g) running).trans (congrArg Host.Outcome.next ?_)
    refine (if_pos ⟨ready, by rw [left]; rfl⟩).trans ?_
    rw [State.noticeGenState, State.notice_eq, State.gen_modGen_same]
    cases g <;> rfl

end Sys2Proof.Proofs
end

section
/-! PROOFS. The law of rescue service (R97, R102, R103): which heads it speaks of, what it reads of the part, and the
operations on requests and rescue places that keep it. -/

namespace Sys2Proof.Machine

variable {s t u : State} {g : GenId} {h : HeadId} {x y : Head} {f : Head → Head}

/-! ### The law, head by head -/

/-- A head as given would stand RUNNING in a SOAK of the profiles of `s`. -/
def State.Soaks (s : State) (x : Head) : Prop :=
  x.ctx.state = .running ∧ ∃ seg, s.segmentOf x = some seg ∧ seg.isSoak = true

theorem soaking_iff (s : State) (h : HeadId) : s.soaking h = true ↔ s.Soaks (s.head h) := by
  rw [State.soaking, State.Soaks, segment_eq_segmentOf, Bool.and_eq_true, beq_iff_eq]
  refine and_congr_right fun _ => ?_
  cases s.segmentOf (s.head h) with
  | none => simp
  | some seg => cases seg <;> simp [Segment.isSoak]

/-- Head `h` has a pending request or is in rescue service. -/
def State.Rescued (s : State) (h : HeadId) : Prop :=
  (s.head h).rescueReq = true ∨ ∃ g, (s.gen g).inService = some h

/-- The law of rescue service, with requests and service asking the same of a head: to be RUNNING in a SOAK. -/
structure State.RescueSafe (s : State) : Prop where
  places : ∀ g h, (s.gen g).inService = some h → (s.head h).cfg.binding = some g ∧ (s.head h).rescueReq = false
  soaks : ∀ h, s.Rescued h → s.Soaks (s.head h)
  orders : ∀ g, (s.gen g).rotation.Perm allHeads

theorem rescueSafe_iff : s.RescueSafe ↔ s.RescueLegal := by
  constructor
  · rintro ⟨places, soaks, orders⟩
    exact ⟨fun g h e => ⟨(places g h e).1, (soaking_iff s h).2 (soaks h (.inr ⟨g, e⟩)), (places g h e).2⟩,
      fun h e => (soaking_iff s h).2 (soaks h (.inl e)), orders⟩
  · rintro ⟨places, requests, orders⟩
    refine ⟨fun g h e => ?_, fun h e => (soaking_iff s h).1 ?_, orders⟩
    · obtain ⟨bound, -, quiet⟩ := places g h e
      exact ⟨bound, quiet⟩
    · rcases e with e | ⟨g, e⟩
      · exact requests h e
      · exact (places g h e).2.1

/-- A head that does not stand RUNNING neither asks nor is served. -/
theorem State.RescueSafe.not_rescued (l : s.RescueSafe) (still : (s.head h).ctx.state ≠ .running) : ¬ s.Rescued h :=
  fun e => still (l.soaks h e).1

theorem State.RescueSafe.not_rescued_of_free (l : s.RescueSafe) (free : s.holds h = false) : ¬ s.Rescued h :=
  l.not_rescued fun e => by rw [State.holds, e] at free; cases free

/-! ### What the law reads -/

/-- Where a head stands: its state and the segment it is in. -/
def Head.standing (x : Head) : HeadState × Option ProfileId × Nat := (x.ctx.state, x.ctx.profile, x.ctx.segIndex)

/-- What the law reads of a head. -/
def Head.rescueView (x : Head) : (HeadState × Option ProfileId × Nat) × Option GenId × Bool :=
  (x.standing, x.cfg.binding, x.rescueReq)

/-- What the law reads of the part. -/
def State.rescuePart (s : State) :
    (HeadId → (HeadState × Option ProfileId × Nat) × Option GenId × Bool) × (GenId → Option HeadId × List HeadId)
      × Vector ProfileRecord 32 :=
  (fun h => (s.head h).rescueView, fun g => ((s.gen g).inService, (s.gen g).rotation), s.profiles)

theorem rescuePart_eq_iff : t.rescuePart = s.rescuePart ↔
    (∀ h, (t.head h).rescueView = (s.head h).rescueView)
      ∧ (∀ g, (t.gen g).inService = (s.gen g).inService ∧ (t.gen g).rotation = (s.gen g).rotation)
      ∧ t.profiles = s.profiles := by
  simp only [State.rescuePart, Prod.mk.injEq, funext_iff]

theorem State.Soaks.congr (e : y.standing = x.standing) (profiles : t.profiles = s.profiles) (l : s.Soaks x) :
    t.Soaks y := by
  simp only [Head.standing, Prod.mk.injEq] at e
  obtain ⟨state, profile, index⟩ := e
  simpa only [State.Soaks, State.segmentOf, State.profile, state, profile, index, profiles] using l

theorem State.RescueSafe.congr (l : s.RescueSafe) (e : t.rescuePart = s.rescuePart) : t.RescueSafe := by
  obtain ⟨heads, gens, profiles⟩ := rescuePart_eq_iff.1 e
  have view := heads
  simp only [Head.rescueView, Prod.mk.injEq] at view
  refine ⟨fun g h served => ?_, fun h asks => ?_, fun g => by rw [(gens g).2]; exact l.orders g⟩
  · obtain ⟨-, binding, request⟩ := view h
    rw [binding, request]
    exact l.places g h ((gens g).1.symm.trans served)
  · obtain ⟨standing, -, request⟩ := view h
    refine (l.soaks h ?_).congr standing profiles
    exact asks.imp (request.symm.trans ·) fun ⟨g, served⟩ => ⟨g, (gens g).1.symm.trans served⟩

/-- A head's change outside what the law reads of it. -/
theorem rescuePart_modHead (h : HeadId) (e : (f (s.head h)).rescueView = (s.head h).rescueView) :
    (s.modHead h f).rescuePart = s.rescuePart := by
  refine rescuePart_eq_iff.2 ⟨fun k => ?_, fun g => by rw [State.gen_modHead]; exact ⟨rfl, rfl⟩, rfl⟩
  by_cases own : k = h
  · subst own; rw [State.head_modHead_same, e]
  · rw [State.head_modHead_other _ _ own]

theorem rescuePart_modAllHeads {f : HeadId → Head → Head} (e : ∀ h x, (f h x).rescueView = x.rescueView) :
    (s.modAllHeads f).rescuePart = s.rescuePart :=
  rescuePart_eq_iff.2 ⟨fun k => by rw [State.head_modAllHeads, e],
    fun g => by rw [State.gen_modAllHeads]; exact ⟨rfl, rfl⟩, rfl⟩

/-- A generator's change outside its rescue place and rotation order. -/
theorem rescuePart_modGen {f : Generator → Generator} (g : GenId)
    (e : (f (s.gen g)).inService = (s.gen g).inService ∧ (f (s.gen g)).rotation = (s.gen g).rotation) :
    (s.modGen g f).rescuePart = s.rescuePart := by
  refine rescuePart_eq_iff.2 ⟨fun h => by rw [State.head_modGen], fun k => ?_, State.modGen_profiles ..⟩
  by_cases own : k = g
  · subst own; rw [State.gen_modGen_same]; exact e
  · rw [State.gen_modGen_other _ _ own]; exact ⟨rfl, rfl⟩

section
variable (s)

@[simp] theorem rescuePart_countDev (h : HeadId) (d : Deviation) : (s.countDev h d).rescuePart = s.rescuePart :=
  rescuePart_modHead h rfl

@[simp] theorem rescuePart_modGroup (g : GroupId) (f : Group → Group) :
    (s.modGroup g f).rescuePart = s.rescuePart := rfl

@[simp] theorem rescuePart_modRp (f : RingPort → RingPort) : (s.modRp f).rescuePart = s.rescuePart := rfl

@[simp] theorem rescuePart_countPort (c : PortCounter) : (s.countPort c).rescuePart = s.rescuePart := rfl

@[simp] theorem rescuePart_notice (b : List Byte) : (s.notice b).rescuePart = s.rescuePart := by
  rw [State.notice_eq]; rfl

@[simp] theorem rescuePart_noticeGenState (g : GenId) (left : GenState) :
    (s.noticeGenState g left).rescuePart = s.rescuePart := rescuePart_notice s _

@[simp] theorem rescuePart_noticeCoolantLatch (g : GroupId) :
    (s.noticeCoolantLatch g).rescuePart = s.rescuePart := rescuePart_notice s _

@[simp] theorem rescuePart_startIdleIfUnheld (g : GenId) :
    (startIdleIfUnheld g s).rescuePart = s.rescuePart := by
  rw [startIdleIfUnheld_spec]
  exact rescuePart_modGen g (by split <;> exact ⟨rfl, rfl⟩)

@[simp] theorem rescuePart_noted (h : HeadId) (fr : FaultRecord) (rp : RingPort) :
    (s.noted h fr rp).rescuePart = s.rescuePart := rescuePart_modHead (s := s) (f := fun x => { x with fr := fr }) h rfl

end

/-- What the law reads lies behind the port. -/
theorem rescuePart_of_inner (e : t.inner = s.inner) : t.rescuePart = s.rescuePart := by
  have part : ∀ v : State, v.rescuePart = v.inner.rescuePart := fun _ => rfl
  rw [part t, part s, e]

/-! ### Changes of one head and of one generator -/

/-- A head that is served stays bound to its generator, and one that asks or is served stands in a SOAK. -/
theorem State.RescueSafe.modHead (l : s.RescueSafe)
    (place : ∀ g, (s.gen g).inService = some h → (f (s.head h)).cfg.binding = some g ∧ (f (s.head h)).rescueReq = false)
    (soaks : ((f (s.head h)).rescueReq = true ∨ ∃ g, (s.gen g).inService = some h) → s.Soaks (f (s.head h))) :
    (s.modHead h f).RescueSafe := by
  refine ⟨fun g k served => ?_, fun k asks => ?_, fun g => by rw [State.gen_modHead]; exact l.orders g⟩
  · rw [State.gen_modHead] at served
    by_cases own : k = h
    · subst own; rw [State.head_modHead_same]; exact place g served
    · rw [State.head_modHead_other _ _ own]; exact l.places g k served
  · simp only [State.Rescued, State.gen_modHead] at asks
    by_cases own : k = h
    · subst own; rw [State.head_modHead_same] at asks ⊢; exact soaks asks
    · rw [State.head_modHead_other _ _ own] at asks ⊢; exact l.soaks k asks

/-- A head that neither asks nor is served may change at will, as long as it does not ask. -/
theorem State.RescueSafe.modHead_out (l : s.RescueSafe) (out : ¬ s.Rescued h) (quiet : (f (s.head h)).rescueReq = false) :
    (s.modHead h f).RescueSafe :=
  l.modHead (fun g served => absurd (.inr ⟨g, served⟩) out) fun asks =>
    absurd (.inr (asks.resolve_left (by rw [quiet]; nofun))) out

theorem not_rescued_modHead (out : ¬ s.Rescued h) (quiet : (f (s.head h)).rescueReq = false) :
    ¬ (s.modHead h f).Rescued h := by
  simp only [State.Rescued, State.head_modHead_same, State.gen_modHead, quiet]
  exact fun e => out (.inr (e.resolve_left nofun))

theorem request_of_not_rescued (out : ¬ s.Rescued h) : (s.head h).rescueReq = false :=
  Bool.eq_false_iff.2 fun e => out (.inl e)

/-- Being in service of no generator, as the model tests it. -/
theorem inRescue_eq_false_iff : s.inRescue h = false ↔ ∀ g, (s.gen g).inService ≠ some h := by
  simp only [State.inRescue, Bool.or_eq_false_iff, beq_eq_false_iff_ne]
  exact ⟨fun e g => by cases g; exacts [e.1, e.2], fun e => ⟨e .a, e .b⟩⟩

/-- A generator's place is filled by a head bound to it that stands in a SOAK and does not ask; its order stays one. -/
theorem State.RescueSafe.modGen {f : Generator → Generator} (l : s.RescueSafe)
    (place : ∀ h, (f (s.gen g)).inService = some h →
      (s.head h).cfg.binding = some g ∧ (s.head h).rescueReq = false ∧ s.Soaks (s.head h))
    (order : (f (s.gen g)).rotation.Perm allHeads) : (s.modGen g f).RescueSafe := by
  have profiles := State.modGen_profiles s g f
  refine ⟨fun k h served => ?_, fun h asks => ?_, fun k => ?_⟩
  · rw [State.head_modGen]
    by_cases own : k = g
    · subst own
      rw [State.gen_modGen_same] at served
      obtain ⟨bound, quiet, -⟩ := place h served
      exact ⟨bound, quiet⟩
    · rw [State.gen_modGen_other _ _ own] at served; exact l.places k h served
  · rw [State.head_modGen]
    have soaks : s.Soaks (s.head h) := by
      rw [State.Rescued, State.head_modGen] at asks
      rcases asks with asks | ⟨k, served⟩
      · exact l.soaks h (.inl asks)
      · by_cases own : k = g
        · subst own; rw [State.gen_modGen_same] at served; exact (place h served).2.2
        · rw [State.gen_modGen_other _ _ own] at served; exact l.soaks h (.inr ⟨k, served⟩)
    exact soaks.congr rfl profiles
  · by_cases own : k = g
    · subst own; rw [State.gen_modGen_same]; exact order
    · rw [State.gen_modGen_other _ _ own]; exact l.orders k

/-! ### The end of a rescue (R102, R103) -/

/-- A head moved to the end of a rotation order leaves an order of the sixteen heads (R102). -/
theorem rotated_perm {l : List HeadId} (order : l.Perm allHeads) (h : HeadId) :
    (l.filter (fun k => k != h) ++ [h]).Perm allHeads := by
  have nodup : l.Nodup := order.nodup_iff.2 (by decide)
  rw [← nodup.erase_eq_filter]
  exact (List.perm_append_singleton ..).trans
    ((List.perm_cons_erase (order.mem_iff.2 (mem_allHeads h))).symm.trans order)

theorem State.RescueSafe.endRescue (l : s.RescueSafe) (g : GenId) : (endRescue g s).RescueSafe := by
  unfold Machine.endRescue
  split
  · exact l
  · refine l.modGen nofun ?_
    dsimp only
    split
    · exact rotated_perm (l.orders g) _
    · exact l.orders g

theorem Generator.afterEnd_inService (z : Generator) (h : HeadId) (m : RescueMode) (bound held : Bool) (d : Nat) :
    (z.afterEnd h m bound held d).inService = if z.inService = some h then none else z.inService := by
  unfold Generator.afterEnd
  dsimp only
  split <;> split <;> rfl

theorem Generator.afterEnd_rotation (z : Generator) (h : HeadId) (m : RescueMode) (bound held : Bool) (d : Nat) :
    (z.afterEnd h m bound held d).rotation =
      if z.inService = some h ∧ m = .rotating then z.rotation.filter (fun k => k != h) ++ [h] else z.rotation := by
  unfold Generator.afterEnd
  by_cases served : z.inService = some h
  · simp only [served, if_true, true_and]; split <;> rfl
  · simp only [served, if_false, false_and]; split <;> rfl

/-- Once a head has left its place it may change at will, as long as it does not ask. -/
theorem State.RescueSafe.leaving (l : s.RescueSafe) (quiet : x.rescueReq = false) : (s.leaving h x).RescueSafe := by
  have stays : ∀ {g k}, ((s.leaving h x).gen g).inService = some k → k ≠ h ∧ (s.gen g).inService = some k := by
    intro g k served
    rw [State.leaving_gen, Generator.afterEnd_inService] at served
    split at served
    · cases served
    · next other => exact ⟨fun e => other (e ▸ served), served⟩
  refine ⟨fun g k served => ?_, fun k asks => ?_, fun g => ?_⟩
  · obtain ⟨other, served⟩ := stays served
    rw [State.leaving_head_other _ _ other]; exact l.places g k served
  · have other : k ≠ h := fun own => by
      subst own
      rcases asks with asks | ⟨g, served⟩
      · rw [State.leaving_head_same, quiet] at asks; cases asks
      · exact (stays served).1 rfl
    rw [State.Rescued, State.leaving_head_other _ _ other] at asks
    rw [State.leaving_head_other _ _ other]
    exact l.soaks k (asks.imp_right fun ⟨g, served⟩ => ⟨g, (stays served).2⟩)
  · rw [State.leaving_gen, Generator.afterEnd_rotation]
    split
    · exact rotated_perm (l.orders g) h
    · exact l.orders g

theorem not_rescued_leaving (quiet : x.rescueReq = false) : ¬ (s.leaving h x).Rescued h := by
  rintro (asks | ⟨g, served⟩)
  · rw [State.leaving_head_same, quiet] at asks; cases asks
  · rw [State.leaving_gen, Generator.afterEnd_inService] at served
    split at served
    · cases served
    · next other => exact other served

theorem State.RescueSafe.dropRescue (l : s.RescueSafe) (h : HeadId) : (dropRescue h s).RescueSafe := by
  rw [dropRescue_eq_leaving]; exact l.leaving rfl

theorem not_rescued_dropRescue (s : State) (h : HeadId) : ¬ (dropRescue h s).Rescued h := by
  rw [dropRescue_eq_leaving]; exact not_rescued_leaving rfl

end Sys2Proof.Machine
end

section
/-! PROOFS. Every event of a head, a generator, a sample, an interlock frame and a slot keeps the law of rescue service
(R97-R103, R105). -/

namespace Sys2Proof.Machine

variable {s t u : State} {g : GenId} {h : HeadId}

/-! ### Keeping the law -/

/-- From `s` to `t` the law of rescue service is kept. -/
structure RescueKept (s t : State) : Prop where
  safe : s.RescueSafe → t.RescueSafe

theorem RescueKept.refl (s : State) : RescueKept s s := ⟨id⟩

theorem RescueKept.trans (a : RescueKept s t) (b : RescueKept t u) : RescueKept s u := ⟨b.safe ∘ a.safe⟩

theorem RescueKept.quiet (e : t.rescuePart = s.rescuePart) : RescueKept s t := ⟨fun l => l.congr e⟩

/-- What stands after the last change of what the law reads plays no part. -/
theorem RescueKept.then (a : RescueKept s t) (e : u.rescuePart = t.rescuePart) : RescueKept s u := a.trans (.quiet e)

theorem RescueKept.foldl {α : Type} {f : State → α → State} (each : ∀ s a, RescueKept s (f s a)) (l : List α)
    (s : State) : RescueKept s (l.foldl f s) := by
  induction l generalizing s with
  | nil => exact .refl s
  | cons a l ih => exact (each s a).trans (ih _)

/-! ### Faults and the end of a joint (R35, R40, R144) -/

/-- A suspended head has left its rescue (R40). -/
theorem suspend_keepsRescue (cause : SuspendCause) (h : HeadId) (s : State) : RescueKept s (suspend cause h s) := by
  rw [suspend, dropRescue_eq_leaving, State.modHead_leaving, State.head_modHead_same]
  exact ⟨fun l => l.leaving rfl⟩

/-- To the law a joint's end is the head's leaving, its joint over (R35). -/
theorem rescuePart_finishJoint (o : JointOutcome) (f : Option (List Criterion)) (k : Option FaultKind) (h : HeadId)
    (s : State) : (finishJoint o f k h s).rescuePart = (s.leaving h ((s.head h).afterJoint o)).rescuePart := by
  refine rescuePart_eq_iff.2 ⟨fun j => ?_, fun g => ?_, (finishJoint_others s o f k h).profiles⟩
  · by_cases own : j = h
    · subst own; rw [finishJoint_head_same, State.leaving_head_same]
    · rw [finishJoint_head_other _ _ _ _ own, State.leaving_head_other _ _ own]
  · simp only [finishJoint_gen, State.leaving_gen, Generator.afterEnd_inService, Generator.afterEnd_rotation, and_self]

theorem finishJoint_keepsRescue (o : JointOutcome) (f : Option (List Criterion)) (k : Option FaultKind) (h : HeadId)
    (s : State) : RescueKept s (finishJoint o f k h s) :=
  ⟨fun l => State.RescueSafe.congr (l.leaving rfl) (rescuePart_finishJoint ..)⟩

theorem finishNormally_keepsRescue (h : HeadId) (s : State) : RescueKept s (finishNormally h s) := by
  have ends : ∀ l : List Criterion, RescueKept s
      (if l = [] then finishJoint .accept none none h s else finishJoint .reject (some l) none h s) := fun l => by
    split <;> exact finishJoint_keepsRescue ..
  exact ends _

/-- A fault ends the joint, suspends it or is recorded (R144, R145). -/
theorem takeFault_keepsRescue (h : HeadId) (k : FaultKind) (s : State) : RescueKept s (takeFault h k s) := by
  by_cases held : s.holds h = true
  · rw [takeFault_noted held]
    generalize s.faultAction h k = act
    refine .trans (.quiet (rescuePart_noted s h (s.recordAfter h k act) (s.faultNoticed h k act))) ?_
    generalize s.noted h (s.recordAfter h k act) (s.faultNoticed h k act) = t
    rcases applyAction_cases t h k act with ⟨-, e⟩ | ⟨-, e⟩ | ⟨-, e⟩ <;> rw [e]
    · exact finishJoint_keepsRescue ..
    · exact .trans (.quiet (rescuePart_modHead h rfl)) (suspend_keepsRescue ..)
    · exact .refl t
  · rw [takeFault_eq, if_neg held]
    exact .quiet (rescuePart_modHead h rfl)

/-! ### Segments (R29, R30, R105) -/

theorem entryTest_keepsRescue (h : HeadId) (s : State) : RescueKept s (entryTest h s) := by
  unfold entryTest
  split
  · exact takeFault_keepsRescue ..
  split
  · exact .refl s
  · exact takeFault_keepsRescue ..

/-- A head enters a SOAK with its request and service, and any other segment without them (R105). -/
theorem enterSegment_keepsRescue (h : HeadId) (s : State) : RescueKept s (enterSegment h s) := by
  cases e : s.segment h with
  | none => rw [enterSegment, e]; exact .refl s
  | some seg =>
    let x := (s.head h).entered seg s.timebase (3 * s.slots.period)
    have entered : RescueKept s (if seg.isSoak then s.modHead h fun _ => x else s.leaving h x) := by
      refine ⟨fun l => ?_⟩
      have request : x.rescueReq = (seg.isSoak && (s.head h).rescueReq) := entered_rescueReq ..
      split
      · next soak =>
        rw [soak, Bool.true_and] at request
        refine l.modHead (fun g served => ?_) fun _ => ⟨?_, seg, ?_, soak⟩
        · rw [request, Head.entered_cfg]; exact l.places g h served
        · cases seg <;> rfl
        · rw [← e]; cases seg <;> rfl
      · next other =>
        rw [Bool.eq_false_iff.2 other, Bool.false_and] at request
        exact l.leaving request
    rw [enterSegment_entered s e]
    dsimp only
    split
    · exact entered.trans (entryTest_keepsRescue ..)
    · exact entered

/-- The head has left its rescue before its segment index moves (R30, R105). -/
theorem exitSegment_keepsRescue (h : HeadId) (s : State) : RescueKept s (exitSegment h s) := by
  have left : RescueKept s (leaveSegment h s) :=
    ⟨fun l => (l.congr (rescuePart_modHead h rfl)).dropRescue h⟩
  refine left.trans ?_
  rcases exitSegment_cases h s with ⟨rc, -, -, e⟩ | ⟨-, e⟩ <;> rw [e]
  · have out : ¬ (leaveSegment h s).Rescued h := not_rescued_dropRescue _ _
    have moved : RescueKept (leaveSegment h s)
        ((leaveSegment h s).modCtx h fun c => { c with segIndex := c.segIndex + 1 }) :=
      ⟨fun l => l.modHead_out out (request_of_not_rescued out)⟩
    exact moved.trans (enterSegment_keepsRescue ..)
  · exact finishNormally_keepsRescue ..

/-! ### The entry into a joint (R26, R27, R43) -/

/-- A head that neither asks nor is served enters its joint. -/
theorem enterJoint_keepsRescue (out : ¬ s.Rescued h) : RescueKept s (enterJoint h s) := by
  have waits : RescueKept s (s.modCtx h fun c => { c with state := .waitGen }) :=
    ⟨fun l => l.modHead_out out (request_of_not_rescued out)⟩
  unfold enterJoint
  dsimp only
  split
  · exact waits
  split
  · exact .trans (.quiet (rescuePart_modGen _ ⟨rfl, rfl⟩)) (enterSegment_keepsRescue ..)
  · exact waits
  · exact waits
  · exact waits.then ((rescuePart_noticeGenState ..).trans (rescuePart_modGen _ ⟨rfl, rfl⟩))
  · exact waits.trans (takeFault_keepsRescue ..)

theorem startJoint_keepsRescue {p : ProfileId} (idle : (s.head h).ctx.state = .idle) (serial : Word32) :
    RescueKept s (startJoint h p serial s) := by
  refine ⟨fun l => ?_⟩
  have out : ¬ s.Rescued h := l.not_rescued (by rw [idle]; nofun)
  have prepared : (s.modHead h fun x => x.prepared p (s.profile p).revision serial s.timebase).RescueSafe :=
    l.modHead_out out (request_of_not_rescued out)
  exact (enterJoint_keepsRescue (not_rescued_dropRescue _ _)).safe (prepared.dropRescue h)

theorem resumeJoint_keepsRescue {q : SuspendRecord} {k : Nat} {cont : Bool}
    (suspended : (s.head h).ctx.state = .suspended) : RescueKept s (resumeJoint h q k cont s) := by
  refine ⟨fun l => ?_⟩
  have out : ¬ s.Rescued h := l.not_rescued (by rw [suspended]; nofun)
  have quiet : ((s.head h).resumedFrom q k cont).rescueReq = false := request_of_not_rescued out
  exact (enterJoint_keepsRescue (not_rescued_modHead out quiet)).safe (l.modHead_out out quiet)

/-! ### Generators (chapter 6) -/

theorem faultGenerator_keepsRescue (g : GenId) (cause : GenCause) (s : State) :
    RescueKept s (faultGenerator g cause s) := by
  have entered : RescueKept s (s.modGen g fun x =>
      { x with state := .faulted, cause := cause, wakeTimer := none, idleTimer := none, statusTimer := none }) :=
    .quiet (rescuePart_modGen g ⟨rfl, rfl⟩)
  unfold faultGenerator
  refine ((entered.trans ⟨fun l => l.endRescue g⟩).then (rescuePart_noticeGenState ..)).trans
    (.foldl (fun t h => ?_) _ _)
  unfold faultHeadOf
  dsimp only
  split
  · exact takeFault_keepsRescue ..
  · exact .refl t

theorem readyGenerator_keepsRescue (g : GenId) (s : State) : RescueKept s (readyGenerator g s) := by
  unfold readyGenerator
  dsimp only
  refine .then (.trans (.quiet (rescuePart_modGen g ⟨rfl, rfl⟩)) (.foldl (fun t h => ?_) allHeads _)) (by simp; rfl)
  unfold releaseWaiting
  dsimp only
  split
  · exact enterSegment_keepsRescue ..
  · exact .refl t

theorem applyReport_keepsRescue (g : GenId) (r : Reported) (s : State) : RescueKept s (applyReport g r s) := by
  rcases applyReport_cases s g r with ⟨-, -, -, e⟩ | ⟨-, -, e⟩ | ⟨-, -, e⟩ | e <;> rw [e]
  · exact faultGenerator_keepsRescue ..
  · exact readyGenerator_keepsRescue ..
  · exact faultGenerator_keepsRescue ..
  · exact .refl s

theorem creditEnergy_keepsRescue (m : Genstat) (s : State) : RescueKept s (creditEnergy m s) := by
  rcases creditEnergy_cases s m with e | ⟨h, d, -, -, e⟩ | ⟨h, x, -, -, -, -, e⟩ <;> rw [e]
  · exact .refl s
  · exact .quiet (rescuePart_countDev ..)
  · exact .quiet (rescuePart_modHead h rfl)

theorem takeGenstat_keepsRescue (p : List Byte) (s : State) : RescueKept s (takeGenstat p s) := by
  unfold takeGenstat
  split
  · exact .quiet (rescuePart_countPort ..)
  split
  · exact .refl s
  · next m _ _ =>
    have recorded : RescueKept s (recordReport m s) := .quiet (rescuePart_modGen _ ⟨rfl, rfl⟩)
    exact (recorded.trans (creditEnergy_keepsRescue ..)).trans (applyReport_keepsRescue ..)

theorem wakeExpiry_keepsRescue (g : GenId) (s : State) : RescueKept s (wakeExpiry g s) := by
  unfold wakeExpiry; split
  · exact faultGenerator_keepsRescue ..
  · exact .refl s

theorem statusExpiry_keepsRescue (g : GenId) (s : State) : RescueKept s (statusExpiry g s) := by
  unfold statusExpiry; split
  · exact faultGenerator_keepsRescue ..
  · exact .refl s

theorem idleExpiry_keepsRescue (g : GenId) (s : State) : RescueKept s (idleExpiry g s) := by
  unfold idleExpiry; split
  · exact .quiet ((rescuePart_noticeGenState ..).trans (rescuePart_modGen g ⟨rfl, rfl⟩))
  · exact .refl s

theorem rescueLimitExpiry_keepsRescue (g : GenId) (s : State) : RescueKept s (rescueLimitExpiry g s) := by
  unfold rescueLimitExpiry
  split
  · split
    · exact .quiet (rescuePart_modGen g ⟨rfl, rfl⟩)
    · exact .trans ⟨fun l => l.endRescue g⟩ (takeFault_keepsRescue ..)
  · exact .refl s

/-! ### The timers of heads (R30, R31, R33, R44) -/

theorem segmentExpiry_keepsRescue (h : HeadId) (s : State) : RescueKept s (segmentExpiry h s) := by
  unfold segmentExpiry
  split
  · split
    · exact .refl s
    · exact takeFault_keepsRescue ..
    · exact exitSegment_keepsRescue ..
    · exact .trans (.quiet (rescuePart_modHead h rfl)) (exitSegment_keepsRescue ..)
  · exact .refl s

theorem sampleExpiry_keepsRescue (h : HeadId) (s : State) : RescueKept s (sampleExpiry h s) := by
  unfold sampleExpiry; split
  · exact takeFault_keepsRescue ..
  · exact .refl s

theorem windowExpiry_keepsRescue (h : HeadId) (s : State) : RescueKept s (windowExpiry h s) := by
  unfold windowExpiry; split
  · exact takeFault_keepsRescue ..
  · exact .refl s

/-! ### Samples (chapter 3) -/

/-- A request is raised in a SOAK alone, by a head that neither asks nor is served (R70, R97). -/
theorem soakTests_keepsRescue (p : Params) (target tf : Nat) (soaks : s.Soaks (s.head h)) :
    RescueKept s (soakTests p target tf h s) := by
  unfold soakTests raiseRequest
  split
  · split
    · exact .refl s
    · next calm =>
      obtain ⟨-, away⟩ := Bool.or_eq_false_iff.1 (Bool.eq_false_iff.2 calm)
      have raised : RescueKept s (s.modHead h fun x => { x with rescueReq := true }) :=
        ⟨fun l => l.modHead (fun g served => absurd served (inRescue_eq_false_iff.1 away g)) fun _ => soaks⟩
      dsimp only
      split
      · exact raised.then (rescuePart_countDev ..)
      · exact raised
  · split
    · exact ⟨fun l => l.dropRescue h⟩
    · exact .refl s

/-- Steps 10 to 12 of R54 for a RUNNING head. -/
theorem runSample_keepsRescue (m : TakenSample) (p : Params) (running : (s.head m.head).ctx.state = .running) :
    RescueKept s (runSample m p s) := by
  cases e : s.segment m.head with
  | none => rw [runSample, e]; exact .refl s
  | some seg =>
    let steered := s.modHead m.head fun x =>
      { x with hcu := x.hcu.steer p seg x.ctx.rampOrigin (s.since x.ctx.segStart) }
    have part : (if m.quality.usable then steered else s).rescuePart = s.rescuePart := by
      split
      · exact rescuePart_modHead _ rfl
      · rfl
    simp only [runSample, e]
    refine .trans (.quiet part) ?_
    change RescueKept _ (match ((if m.quality.usable then steered else s).head m.head).hcu.filtered with
      | none => (if m.quality.usable then steered else s)
      | some tf => _)
    generalize (if m.quality.usable then steered else s) = v at part
    obtain ⟨heads, -, profiles⟩ := rescuePart_eq_iff.1 part
    split
    · exact .refl v
    split
    · exact soakTests_keepsRescue _ _ _ (State.Soaks.congr (congrArg Prod.fst (heads _)) profiles ⟨running, _, e, rfl⟩)
    split
    · exact exitSegment_keepsRescue ..
    · exact .refl v

theorem processSample_keepsRescue (m : TakenSample) (p : Params) (s : State) :
    RescueKept s (processSample m p s) := by
  have measured : RescueKept s (s.modHead m.head fun x =>
      x.measured m p (s.inRamp m.head) s.timebase s.threeSlots) := .quiet (rescuePart_modHead m.head rfl)
  have coupled : ∀ t : State, RescueKept t (t.modHead m.head fun x => x.coupled m t.threeSlots) := fun _ =>
    .quiet (rescuePart_modHead m.head rfl)
  unfold processSample
  dsimp only
  refine measured.trans ?_
  split
  · exact takeFault_keepsRescue ..
  refine (coupled _).trans ?_
  split
  · next running =>
    split
    · exact takeFault_keepsRescue ..
    · exact runSample_keepsRescue m p running
  · exact .refl _

theorem acceptSample_keepsRescue (m : TakenSample) (s : State) : RescueKept s (acceptSample m s) := by
  have kept : (if m.quality = .weak then (keepSample m s).countDev m.head .weak else keepSample m s).rescuePart =
      s.rescuePart := by
    have keeps : (keepSample m s).rescuePart = s.rescuePart := rescuePart_modHead m.head rfl
    split
    · rw [rescuePart_countDev, keeps]
    · exact keeps
  unfold acceptSample
  dsimp only
  generalize (if m.quality = .weak then (keepSample m s).countDev m.head .weak else keepSample m s) = t at kept ⊢
  refine .trans (.quiet kept) ?_
  split
  · split
    · exact .refl t
    · exact processSample_keepsRescue ..
  · exact .refl t

theorem takeSample_keepsRescue (p : List Byte) (s : State) : RescueKept s (takeSample p s) := by
  unfold takeSample
  split
  · exact .quiet (rescuePart_countPort ..)
  unfold sequenceSample
  split
  · exact .quiet (rescuePart_countDev ..)
  · exact .quiet (rescuePart_countDev ..)
  · exact .trans (.quiet (rescuePart_countDev ..)) (acceptSample_keepsRescue ..)
  · exact acceptSample_keepsRescue ..

/-! ### Interlocks (chapter 7) -/

theorem releaseEarly_keepsRescue (h : HeadId) (s : State) : RescueKept s (releaseEarly h s) :=
  .quiet ((rescuePart_countDev ..).trans (rescuePart_modHead h rfl))

theorem interlockLoss_keepsRescue (released : Bool) (h : HeadId) (s : State) :
    RescueKept s (interlockLoss released h s) := by
  unfold interlockLoss
  split
  · split
    · split
      · exact .refl s
      · exact releaseEarly_keepsRescue ..
    · exact takeFault_keepsRescue ..
  · exact takeFault_keepsRescue ..
  · exact takeFault_keepsRescue ..
  · exact .refl s
  · exact .refl s
  · exact .refl s

theorem coolantLossHead_keepsRescue (s : State) (h : HeadId) : RescueKept s (coolantLossHead s h) := by
  unfold coolantLossHead
  split
  · split
    · exact releaseEarly_keepsRescue ..
    · exact takeFault_keepsRescue ..
  · exact takeFault_keepsRescue ..
  · exact takeFault_keepsRescue ..
  · exact .refl s
  · exact .refl s
  · exact .refl s

theorem coolantLoss_keepsRescue (g : GroupId) (s : State) : RescueKept s (coolantLoss g s) := by
  unfold coolantLoss
  refine .trans (.quiet ?_) (.foldl coolantLossHead_keepsRescue _ _)
  split <;> simp

theorem actOnLosses_keepsRescue (s0 : State) (lost : GroupId → Bool) (s : State) :
    RescueKept s (actOnLosses s0 lost s) := by
  unfold actOnLosses
  refine .trans (.foldl (fun t g => ?_) _ _) (.foldl (fun t h => ?_) _ _)
  · split
    · exact coolantLoss_keepsRescue ..
    · exact .refl t
  · split
    · exact interlockLoss_keepsRescue ..
    · exact .refl t

theorem rescuePart_withInterlocks (i : Interlocks) (s : State) :
    ({ s with interlocks := i } : State).rescuePart = s.rescuePart := rfl

theorem takeInterlock_keepsRescue (p : List Byte) (s : State) : RescueKept s (takeInterlock p s) := by
  unfold takeInterlock
  split
  · exact .refl s
  · unfold takeInterlockFrame
    refine .trans (.quiet ?_) (actOnLosses_keepsRescue ..)
    unfold showFrame
    rw [rescuePart_withInterlocks, rescuePart_modAllHeads, rescuePart_withInterlocks]
    exact fun _ _ => rfl

theorem interlockExpiry_keepsRescue (s : State) : RescueKept s (interlockExpiry s) := by
  unfold interlockExpiry
  split
  · refine .trans (.quiet ?_) (actOnLosses_keepsRescue ..)
    unfold dropAllInputs
    rw [rescuePart_withInterlocks, rescuePart_withInterlocks, rescuePart_modAllHeads]
    exact fun _ _ => rfl
  · exact .refl s

/-! ### The slot expiry (R74, R98-R101) -/

theorem candidate_iff (s : State) (g : GenId) (h : HeadId) : s.candidate g h = true ↔
    (s.head h).cfg.binding = some g ∧ (s.head h).rescueReq = true ∧ (s.head h).cfg.masked = false := by
  simp only [State.candidate, Bool.and_eq_true, beq_iff_eq, Bool.not_eq_true', and_assoc]

/-- A head bound to the generator that stands in a SOAK is granted. -/
theorem grantRescue_keepsRescue (bound : (s.head h).cfg.binding = some g) (soaks : s.Soaks (s.head h)) :
    RescueKept s (grantRescue g h s) := by
  refine ⟨fun l => ?_⟩
  let v := s.modHead h fun x =>
    { x with rescueReq := false, ctx := { x.ctx with rescueCount := count16 x.ctx.rescueCount } }
  have own : v.head h = { s.head h with
      rescueReq := false, ctx := { (s.head h).ctx with rescueCount := count16 (s.head h).ctx.rescueCount } } :=
    State.head_modHead_same ..
  have taken : v.RescueSafe := l.modHead (fun k served => ⟨(l.places k h served).1, rfl⟩) fun _ => soaks
  have granted : (v.modGen g fun x =>
      { x with inService := some h, limitTimer := some v.mu.config.rescueLimit }).RescueSafe := by
    refine taken.modGen (fun k served => ?_) (taken.orders g)
    obtain rfl := Option.some.inj served
    rw [own]
    exact ⟨bound, rfl, soaks⟩
  exact granted.congr (rescuePart_countDev ..)

/-- A candidate asks, so it stands in a SOAK; a head that is preempted asks again in the SOAK it was served in. -/
theorem resolveRescue_keepsRescue (g : GenId) (s : State) : RescueKept s (resolveRescue g s) := by
  refine ⟨fun l => ?_⟩
  rcases resolveRescue_cases g s with e | ⟨w, asks, -, e⟩ | ⟨k, w, asks, served, better, e⟩ <;> rw [e]
  · exact l
  all_goals
    obtain ⟨bound, request, -⟩ := (candidate_iff s g w).1 asks
    have soaks := l.soaks w (.inl request)
  · exact (grantRescue_keepsRescue bound soaks).safe l
  · let v := s.modGen g fun x => { x with inService := none, limitTimer := none }
    have left : v.RescueSafe := l.modGen nofun (l.orders g)
    have other : w ≠ k := fun same => lt_irrefl _ (same ▸ better)
    have own : (v.modHead k fun x => { x with rescueReq := true }).head w = s.head w := by
      rw [State.head_modHead_other _ _ other, State.head_modGen]
    have vacated : (v.modHead k fun x => { x with rescueReq := true }).RescueSafe := by
      refine left.modHead (fun j again => ?_) fun _ => ?_
      · have elsewhere : j ≠ g := fun same => by
          subst same; rw [State.gen_modGen_same] at again; cases again
        rw [State.gen_modGen_other _ _ elsewhere] at again
        exact absurd (Option.some.inj ((l.places j k again).1.symm.trans (l.places g k served).1)) elsewhere
      · refine (l.soaks k (.inr ⟨g, served⟩)).congr ?_ (State.modGen_profiles ..)
        rw [State.head_modGen]; rfl
    refine (grantRescue_keepsRescue ?_ ?_).safe vacated
    · rw [own]; exact bound
    · rw [own]; exact soaks.congr rfl (State.modGen_profiles ..)

theorem serveGenerator_keepsRescue (g : GenId) (other : Option HeadId) (s : State) :
    RescueKept s (serveGenerator g other s).1 := by
  refine (resolveRescue_keepsRescue g s).then ?_
  change (countBorrowed _ (resolveRescue g s)).rescuePart = _
  unfold countBorrowed
  split
  · exact rescuePart_countDev ..
  · rfl

@[simp] theorem rescuePart_powerEffects (g : GenId) (h : HeadId) (s : State) :
    (powerEffects g h s).rescuePart = s.rescuePart := by
  have derates : (derateHead g h s).rescuePart = s.rescuePart := by
    unfold derateHead
    split
    · exact (rescuePart_countDev ..).trans (rescuePart_modHead h rfl)
    · rfl
  rw [powerEffects_eq]
  refine (rescuePart_modGen g ⟨rfl, rfl⟩).trans ?_
  unfold powerMarks
  split
  · exact (rescuePart_modHead h rfl).trans derates
  · exact derates

@[simp] theorem rescuePart_buildDrive (g : GenId) (served : Option HeadId) (s : State) :
    (buildDrive g served s).rescuePart = s.rescuePart := by
  unfold buildDrive
  split
  · rfl
  · dsimp only
    split
    · exact rescuePart_powerEffects ..
    · rfl

/-- The rounds' advance is none of the law's (R76, R80). -/
theorem rescuePart_slotRounds (s : State) : (slotRounds s).rescuePart = s.rescuePart := by
  refine rescuePart_eq_iff.2 ⟨fun h => by rw [slotRounds_head], fun g => ?_, by rw [slotRounds_eq]⟩
  rw [slotRounds_gen, Generator.advanced_frame]
  exact ⟨rfl, rfl⟩

theorem slotExpiry_keepsRescue (s : State) : RescueKept s (slotExpiry s) := by
  have served : RescueKept (slotRounds s) (slotService (slotRounds s)) := by
    unfold slotService
    exact ((serveGenerator_keepsRescue ..).trans (serveGenerator_keepsRescue ..)).then
      ((rescuePart_buildDrive ..).trans (rescuePart_buildDrive ..))
  unfold slotExpiry
  split
  · exact .trans (.quiet (rescuePart_slotRounds s)) served
  · exact .refl s

/-! ### The tick (R1) -/

theorem tick_keepsRescue (s : State) : RescueKept s (tick s) :=
  .quiet (rescuePart_eq_iff.2 ⟨fun h => by rw [tick_head]; rfl, fun g => by rw [tick_gen]; exact ⟨rfl, rfl⟩, rfl⟩)

end Sys2Proof.Machine
end

section
/-! PROOFS. Every command, both resets and so every step keep the law of rescue service (R97, R102, R103). -/

namespace Sys2Proof.Machine

variable {s t u : State} {g : GenId} {h : HeadId}

/-! ### Writes of a profile and of the configuration -/

/-- A record written while it is not in use, or whose contents stay, moves no head out of its SOAK. -/
theorem State.Soaks.modProfile {p : ProfileId} {f : ProfileRecord → ProfileRecord}
    (stays : s.inUse p = false ∨ (f (s.profile p)).recipe = (s.profile p).recipe) (l : s.Soaks (s.head h)) :
    (s.modProfile p f).Soaks (s.head h) := by
  obtain ⟨running, seg, segment, soak⟩ := l
  have recipe : ∀ q, (s.head h).ctx.profile = some q →
      ((s.modProfile p f).profile q).recipe = (s.profile q).recipe := by
    intro q bound
    by_cases own : q = p
    · subst own
      rw [State.profile_modProfile_same]
      exact stays.resolve_left fun unused =>
        (inUse_eq_false_iff q).1 unused h (by rw [State.holds, running]; rfl) bound
    · rw [State.profile_modProfile_other _ _ own]
  refine ⟨running, seg, ?_, soak⟩
  rw [← segment]
  unfold State.segmentOf
  cases bound : (s.head h).ctx.profile with
  | none => rfl
  | some q => simp only [Option.bind_some, recipe q bound]

theorem RescueKept.modProfile {p : ProfileId} {f : ProfileRecord → ProfileRecord}
    (stays : s.inUse p = false ∨ (f (s.profile p)).recipe = (s.profile p).recipe) :
    RescueKept s (s.modProfile p f) :=
  ⟨fun l => ⟨l.places, fun h asks => (l.soaks h asks).modProfile stays, l.orders⟩⟩

@[simp] theorem rescuePart_reconfigure (old : PartConfig) (g : GenId) (s : State) :
    (reconfigure old g s).rescuePart = s.rescuePart := by
  have changed : ∀ x : Generator, (x.reconfigured old s.mu.config g).inService = x.inService
      ∧ (x.reconfigured old s.mu.config g).rotation = x.rotation := by
    intro x
    unfold Generator.reconfigured
    repeat' split
    all_goals exact ⟨rfl, rfl⟩
  unfold reconfigure
  dsimp only
  split
  · exact rescuePart_modGen g (changed _)
  · exact (rescuePart_noticeGenState ..).trans (rescuePart_modGen g (changed _))

/-! ### Each command's effect -/

/-- Carrying out a command keeps the law. -/
def BodyKeepsRescue (body : State → Answer) : Prop := ∀ s, RescueKept s (body s).after

theorem withHead_keepsRescue {f : HeadId → State → Answer} (b : Byte) (each : ∀ h, BodyKeepsRescue (f h)) :
    BodyKeepsRescue (withHead b f) := by
  intro s
  unfold withHead; split
  · exact each _ s
  · exact .refl s

theorem withGen_keepsRescue {f : GenId → State → Answer} (b : Byte) (each : ∀ g, BodyKeepsRescue (f g)) :
    BodyKeepsRescue (withGen b f) := by
  intro s
  unfold withGen; split
  · exact each _ s
  · exact .refl s

theorem withProfile_keepsRescue {f : ProfileId → State → Answer} (b : Byte)
    (each : ∀ p, BodyKeepsRescue (f p)) : BodyKeepsRescue (withProfile b f) := by
  intro s
  unfold withProfile; split
  · exact each _ s
  · exact .refl s

/-- A head that holds no joint may change at will, its request aside. -/
theorem RescueKept.of_free {f : Head → Head} (free : s.holds h = false)
    (request : (f (s.head h)).rescueReq = (s.head h).rescueReq) : RescueKept s (s.modHead h f) :=
  ⟨fun l => l.modHead_out (l.not_rescued_of_free free)
    (request.trans (request_of_not_rescued (l.not_rescued_of_free free)))⟩

theorem doStart_keepsRescue (hd prof : Byte) (serial : Word32) : BodyKeepsRescue (doStart hd prof serial) := by
  intro s
  unfold doStart
  split
  · exact .refl s
  refine withHead_keepsRescue hd (fun h t => ?_) s
  split
  · exact .refl t
  next idle =>
  split
  · exact .refl t
  split
  · exact .refl t
  split
  · exact .refl t
  · exact startJoint_keepsRescue (not_not.1 idle) serial

theorem doAbort_keepsRescue (hd : Byte) : BodyKeepsRescue (doAbort hd) :=
  withHead_keepsRescue hd fun h t => by
    split
    · exact finishJoint_keepsRescue ..
    · exact .refl t

theorem doSuspendHead_keepsRescue (hd : Byte) : BodyKeepsRescue (doSuspendHead hd) :=
  withHead_keepsRescue hd fun h t => by
    split
    · exact suspend_keepsRescue ..
    · exact .refl t

theorem doResumeHead_keepsRescue (hd k : Byte) (cont : Bool) : BodyKeepsRescue (doResumeHead hd k cont) :=
  withHead_keepsRescue hd fun h t => by
    split
    · exact .refl t
    next suspended =>
    split
    · exact .refl t
    split
    · exact .refl t
    split
    · exact .refl t
    split
    · exact .refl t
    · exact resumeJoint_keepsRescue (not_not.1 suspended)

theorem doClearHead_keepsRescue (hd : Byte) : BodyKeepsRescue (doClearHead hd) :=
  withHead_keepsRescue hd fun h t => by
    split
    · exact .refl t
    next faulted =>
    split
    · exact .refl t
    · rw [accept_after]
      exact .of_free (by rw [State.holds, not_not.1 faulted]; rfl) rfl

theorem doDisableHead_keepsRescue (hd : Byte) : BodyKeepsRescue (doDisableHead hd) :=
  withHead_keepsRescue hd fun h t => by
    split
    · exact .refl t
    next idle =>
    rw [accept_after]
    exact .of_free (by rw [State.holds, not_not.1 idle]; rfl) rfl

theorem doEnableHead_keepsRescue (hd : Byte) : BodyKeepsRescue (doEnableHead hd) :=
  withHead_keepsRescue hd fun h t => by
    split
    · exact .refl t
    next disabled =>
    rw [accept_after]
    exact .of_free (by rw [State.holds, not_not.1 disabled]; rfl) rfl

theorem doClearFaults_keepsRescue (hd : Byte) (kinds : List Byte) : BodyKeepsRescue (doClearFaults hd kinds) :=
  withHead_keepsRescue hd fun h t => by
    split
    · exact .refl t
    · exact .quiet (rescuePart_modHead h rfl)

theorem doWriteHeadConfig_keepsRescue (w : HeadConfigArg) : BodyKeepsRescue (doWriteHeadConfig w) :=
  withHead_keepsRescue w.head fun h t => by
    split
    · exact .refl t
    split
    · exact .refl t
    next free =>
    dsimp only [accept_after]
    exact .of_free (Bool.eq_false_iff.2 free) rfl

theorem doClearCoolantLatch_keepsRescue (g : Byte) : BodyKeepsRescue (doClearCoolantLatch g) := by
  intro s
  unfold doClearCoolantLatch
  split
  · exact .refl s
  split
  · exact .refl s
  · exact .quiet rfl

theorem doClearGenerator_keepsRescue (g : Byte) : BodyKeepsRescue (doClearGenerator g) :=
  withGen_keepsRescue g fun g t => by
    split
    · exact .refl t
    split
    · exact .refl t
    · exact .quiet ((rescuePart_noticeGenState ..).trans (rescuePart_modGen g ⟨rfl, rfl⟩))

theorem doClearCounters_keepsRescue : BodyKeepsRescue doClearCounters := fun s => by
  refine .quiet (t := zeroCounters s) ?_
  unfold zeroCounters
  rw [rescuePart_withInterlocks, rescuePart_modRp, rescuePart_modAllHeads]
  exact fun _ _ => rfl

theorem doReadResults_keepsRescue (n : Byte) : BodyKeepsRescue (doReadResults n) := by
  intro s
  unfold doReadResults
  split
  · exact .refl s
  · exact .quiet rfl

theorem doWritePhases_keepsRescue (g i : Byte) (es : List Byte) (n : Byte) :
    BodyKeepsRescue (doWritePhases g i es n) :=
  withGen_keepsRescue g fun g t => by
    split
    · exact .refl t
    split
    · exact .refl t
    split
    · exact .refl t
    · exact .quiet (rescuePart_modGen g ⟨rfl, rfl⟩)

theorem doLoadPhases_keepsRescue (g : Byte) : BodyKeepsRescue (doLoadPhases g) :=
  withGen_keepsRescue g fun g t => by
    split
    · exact .refl t
    split
    · exact .refl t
    · exact .quiet (rescuePart_modGen g ⟨rfl, rfl⟩)

theorem doWriteExclusions_keepsRescue (ps : List (Byte × Byte)) : BodyKeepsRescue (doWriteExclusions ps) := by
  intro s
  unfold doWriteExclusions
  split
  · exact .refl s
  dsimp only
  split
  · exact .refl s
  · exact .quiet rfl

theorem doWritePartConfig_keepsRescue (w : PartConfigArg) : BodyKeepsRescue (doWritePartConfig w) := by
  intro s
  unfold doWritePartConfig
  split
  · dsimp only
    split
    · exact .refl s
    split
    · exact .refl s
    · exact .quiet ((rescuePart_reconfigure ..).trans (rescuePart_reconfigure ..))
  · exact .refl s

theorem doWriteFaultPolicy_keepsRescue (ps : List (Byte × Byte)) : BodyKeepsRescue (doWriteFaultPolicy ps) := by
  intro s
  unfold doWriteFaultPolicy
  split
  · exact .refl s
  · exact .quiet rfl

theorem doWriteProfile_keepsRescue (w : ProfileArg) : BodyKeepsRescue (doWriteProfile w) :=
  withProfile_keepsRescue w.profile fun p t => by
    split
    · exact .refl t
    split
    · exact .refl t
    split
    · exact .refl t
    next unused =>
    split
    · exact .refl t
    dsimp only [accept_after]
    exact .modProfile (.inl (Bool.eq_false_iff.2 unused))

theorem doEraseProfile_keepsRescue (p : Byte) (e : Option Word16) : BodyKeepsRescue (doEraseProfile p e) :=
  withProfile_keepsRescue p fun p t => by
    split
    · exact .refl t
    split
    · exact .refl t
    next unused =>
    split
    · exact .refl t
    dsimp only [accept_after]
    exact .modProfile (.inl (Bool.eq_false_iff.2 unused))

theorem doLockProfile_keepsRescue (p : Byte) : BodyKeepsRescue (doLockProfile p) :=
  withProfile_keepsRescue p fun p t => by
    dsimp only [accept_after]
    exact .modProfile (.inr rfl)

theorem doUnlockProfile_keepsRescue (p : Byte) : BodyKeepsRescue (doUnlockProfile p) :=
  withProfile_keepsRescue p fun p t => by
    split
    · exact .refl t
    · dsimp only [accept_after]
      exact .modProfile (.inr rfl)

/-- Every command's body keeps the law. -/
theorem CommandBody.keepsRescue {body : State → Answer} (b : CommandBody body) : BodyKeepsRescue body := by
  intro s
  cases b with
  | readStatus page => rw [doReadStatus_after]; exact .refl s
  | readConfig => exact .refl s
  | readCounters page => rw [doReadCounters_after]; exact .refl s
  | readProfile p => rw [doReadProfile_after]; exact .refl s
  | readPhases g table => rw [doReadPhases_after]; exact .refl s
  | readHead h => rw [doReadHead_after]; exact .refl s
  | readFaults h => rw [doReadFaults_after]; exact .refl s
  | readResults n => exact doReadResults_keepsRescue n s
  | peekResults n => rw [doPeekResults_after]; exact .refl s
  | start h p serial => exact doStart_keepsRescue h p serial s
  | abort h => exact doAbort_keepsRescue h s
  | suspendHead h => exact doSuspendHead_keepsRescue h s
  | resumeHead h k cont => exact doResumeHead_keepsRescue h k cont s
  | clearHead h => exact doClearHead_keepsRescue h s
  | clearFaults h kinds => exact doClearFaults_keepsRescue h kinds s
  | clearCoolantLatch g => exact doClearCoolantLatch_keepsRescue g s
  | clearGenerator g => exact doClearGenerator_keepsRescue g s
  | ackColdStart => exact .quiet rfl
  | clearCounters => exact doClearCounters_keepsRescue s
  | writeProfile w => exact doWriteProfile_keepsRescue w s
  | eraseProfile p e => exact doEraseProfile_keepsRescue p e s
  | lockProfile p => exact doLockProfile_keepsRescue p s
  | unlockProfile p => exact doUnlockProfile_keepsRescue p s
  | writePhases g i es n => exact doWritePhases_keepsRescue g i es n s
  | loadPhases g => exact doLoadPhases_keepsRescue g s
  | writeHeadConfig w => exact doWriteHeadConfig_keepsRescue w s
  | writeExclusions ps => exact doWriteExclusions_keepsRescue ps s
  | writePartConfig w => exact doWritePartConfig_keepsRescue w s
  | writeFaultPolicy ps => exact doWriteFaultPolicy_keepsRescue ps s
  | disableHead h => exact doDisableHead_keepsRescue h s
  | enableHead h => exact doEnableHead_keepsRescue h s
  | resetPart => exact .quiet rfl

/-! ### Every step -/

/-- A part where no head asks, no place is taken and both orders are the reset's keeps the law. -/
theorem State.RescueSafe.at_rest (asks : ∀ h, (s.head h).rescueReq = false)
    (served : ∀ g, (s.gen g).inService = none) (order : ∀ g, (s.gen g).rotation = rotationReset) : s.RescueSafe := by
  have out : ∀ h, ¬ s.Rescued h := by
    rintro h (e | ⟨g, e⟩)
    · rw [asks] at e; cases e
    · rw [served] at e; cases e
  exact ⟨fun g h e => absurd (.inr ⟨g, e⟩) (out h), fun h e => absurd e (out h),
    fun g => by rw [order]; decide⟩

theorem powerOn_keepsRescue (straps : BitVec 6) (low : Bool) (s : State) : RescueKept s (powerOn straps low s) :=
  ⟨fun _ => .at_rest (fun h => by rw [powerOn_head]; rfl) (fun g => by rw [powerOn_gen]; rfl)
    fun g => by rw [powerOn_gen]; rfl⟩

theorem softReset_keepsRescue (s : State) : RescueKept s (softReset s) :=
  ⟨fun _ => .at_rest (fun h => by rw [softReset_head]; rfl) (fun g => by rw [softReset_gen]; rfl)
    fun g => by rw [softReset_gen]; rfl⟩

theorem releaseRst_keepsRescue (underWay : Bool) (s : State) : RescueKept s (releaseRst underWay s) := by
  unfold releaseRst
  split
  · exact .quiet rfl
  · exact .refl s

/-- Every piece of work keeps the law. -/
theorem Work.keepsRescue {w : State → State} (h : Work w) (s : State) : RescueKept s (w s) := by
  cases h with
  | idle => exact .refl s
  | powerOn straps low => exact powerOn_keepsRescue straps low s
  | release underWay => exact releaseRst_keepsRescue underWay s
  | softReset => exact softReset_keepsRescue s
  | tick => exact tick_keepsRescue s
  | slot => exact slotExpiry_keepsRescue s
  | segmentTimer h => exact segmentExpiry_keepsRescue h s
  | sampleTimer h => exact sampleExpiry_keepsRescue h s
  | windowTimer h => exact windowExpiry_keepsRescue h s
  | rescueLimit g => exact rescueLimitExpiry_keepsRescue g s
  | wakeTimer g => exact wakeExpiry_keepsRescue g s
  | statusTimer g => exact statusExpiry_keepsRescue g s
  | idleTimer g => exact idleExpiry_keepsRescue g s
  | frameTimer => exact interlockExpiry_keepsRescue s
  | sample payload => exact takeSample_keepsRescue payload s
  | genstat payload => exact takeGenstat_keepsRescue payload s
  | interlock payload => exact takeInterlock_keepsRescue payload s
  | command b => exact b.keepsRescue s

/-- Every step keeps the law: its work does, and its plumbing lies before the port. -/
theorem step_keepsRescue (e : step s = .next t) : RescueKept s t := by
  obtain ⟨w, u, hw, before, after⟩ := step_worksTo e
  exact .trans (.quiet (rescuePart_of_inner before)) ((hw.keepsRescue u).then (rescuePart_of_inner after))

end Sys2Proof.Machine

namespace Sys2Proof.Proofs
open Sys2Proof.Machine

/-- Settles O56: the law, with a request asking the same of a head as service does, is kept by every piece of work a
step does behind the port. The joints' law is not needed for it. -/
theorem stepKeepsRescueLegal : Obligations.StepKeepsRescueLegal := by
  intro s t _ legal e
  exact rescueSafe_iff.1 ((step_keepsRescue e).safe (rescueSafe_iff.2 legal))

end Sys2Proof.Proofs
end

section
/-! PROOFS. The resolution of rescue at a slot expiry (R98-R101): who wins, what a grant and a preemption leave, and
that the rest of the expiry plays no part in it. -/

namespace Sys2Proof.Machine

variable {s t u v : State} {g : GenId} {h k : HeadId}

/-! ### The winner (R99, R101) -/

/-- What R99 compares: the priority value first, then the head number. -/
def State.rank (s : State) (h : HeadId) : Nat := (s.head h).cfg.priority * 16 + h.val

/-- The candidate that R99 prefers. -/
def State.Best (s : State) (g : GenId) (h : HeadId) : Prop :=
  s.candidate g h = true ∧ ∀ k, s.candidate g k = true → s.rank h ≤ s.rank k

/-- What holds of every head tried holds of the one preferred. -/
theorem foldl_betterFixed_induction {P : HeadId → Prop} {l : List HeadId} (each : ∀ k ∈ l, P k) {b : Option HeadId}
    (start : ∀ k, b = some k → P k) : ∀ k, l.foldl (betterFixed s) b = some k → P k := by
  induction l generalizing b with
  | nil => exact start
  | cons a l ih =>
    have first : P a := each a List.mem_cons_self
    refine ih (fun k m => each k (List.mem_cons_of_mem _ m)) fun k e => ?_
    cases b with
    | none => exact Option.some.inj e ▸ first
    | some c =>
      simp only [betterFixed] at e
      split at e <;> obtain rfl := Option.some.inj e
      · exact first
      · exact start _ rfl

/-- No head of a priority value as high takes the preference. -/
theorem foldl_betterFixed_keeps {l : List HeadId}
    (each : ∀ k ∈ l, (s.head h).cfg.priority ≤ (s.head k).cfg.priority) :
    l.foldl (betterFixed s) (some h) = some h := by
  induction l with
  | nil => rfl
  | cons a l ih =>
    have stays : betterFixed s (some h) a = some h := if_neg (Nat.not_lt.2 (each a List.mem_cons_self))
    rw [List.foldl_cons, stays]
    exact ih fun k m => each k (List.mem_cons_of_mem _ m)

/-- In FIXED mode the best candidate wins (R99): those before it have a higher value, those after it none
lower. -/
theorem State.Best.winnerFixed (best : s.Best g h) : s.winnerFixed g = some h := by
  obtain ⟨asks, least⟩ := best
  obtain ⟨pre, post, split⟩ := List.append_of_mem (List.mem_filter.2 ⟨mem_allHeads h, asks⟩)
  have ascending : (pre ++ h :: post).Pairwise (· < ·) := by
    rw [← split]; exact List.Pairwise.filter _ (by decide)
  obtain ⟨-, -, before⟩ := List.pairwise_append.1 ascending
  have candidates : ∀ k ∈ pre ++ h :: post, s.rank h ≤ s.rank k := fun k m =>
    least k (List.mem_filter.1 (split ▸ m)).2
  have higher : ∀ k ∈ pre, (s.head h).cfg.priority < (s.head k).cfg.priority := fun k m => by
    have rank := candidates k (List.mem_append_left _ m)
    have lower : k.val < h.val := before k m h List.mem_cons_self
    simp only [State.rank] at rank
    omega
  have noneLower : ∀ k ∈ post, (s.head h).cfg.priority ≤ (s.head k).cfg.priority := fun k m => by
    have rank := candidates k (List.mem_append_right _ (List.mem_cons_of_mem _ m))
    have small : k.val < 16 := k.isLt
    simp only [State.rank] at rank
    omega
  have takes : betterFixed s (pre.foldl (betterFixed s) none) h = some h := by
    cases e : pre.foldl (betterFixed s) none with
    | none => rfl
    | some c => exact if_pos (foldl_betterFixed_induction (b := none) higher nofun c e)
  rw [State.winnerFixed, split, List.foldl_append, List.foldl_cons, takes, foldl_betterFixed_keeps noneLower]

/-- In ROTATING mode the candidate first in the order wins (R101). -/
theorem winnerRotating_eq {pre post : List HeadId} (order : (s.gen g).rotation = pre ++ h :: post)
    (asks : s.candidate g h = true) (before : ∀ k ∈ pre, ¬ s.candidate g k = true) : s.winnerRotating g = some h :=
  List.find?_eq_some_iff_append.2 ⟨asks, pre, post, order, fun k m => by simpa using before k m⟩

/-! ### What the resolution does, by mode and place (R98-R101) -/

theorem resolveRescue_of_no_candidate (none : ∀ h, ¬ s.candidate g h = true) : resolveRescue g s = s := by
  rcases resolveRescue_cases g s with e | ⟨w, asks, -⟩ | ⟨-, w, asks, -⟩
  · exact e
  · exact absurd asks (none w)
  · exact absurd asks (none w)

theorem resolveRescue_fixed_empty (mode : s.mu.config.mode g = .fixed) (best : s.Best g h)
    (empty : (s.gen g).inService = none) : resolveRescue g s = grantRescue g h s := by
  simp only [resolveRescue, mode, best.winnerFixed, empty]

theorem resolveRescue_fixed_held (mode : s.mu.config.mode g = .fixed) (best : s.Best g h)
    (held : (s.gen g).inService = some k) : resolveRescue g s =
      if (s.head h).cfg.priority < (s.head k).cfg.priority then preempt g k h s else s := by
  simp only [resolveRescue, mode, best.winnerFixed, held]

theorem resolveRescue_rotating_held (mode : s.mu.config.mode g = .rotating)
    (held : (s.gen g).inService ≠ none) : resolveRescue g s = s := by
  obtain ⟨k, e⟩ := Option.ne_none_iff_exists'.1 held
  simp only [resolveRescue, mode, e]
  cases s.winnerRotating g <;> rfl

theorem resolveRescue_rotating_empty (mode : s.mu.config.mode g = .rotating) (wins : s.winnerRotating g = some h)
    (empty : (s.gen g).inService = none) : resolveRescue g s = grantRescue g h s := by
  simp only [resolveRescue, mode, wins, empty]

/-! ### Requests and rescue counts -/

/-- What the resolution keeps of a head: its request and its rescue count. -/
def Head.plea (x : Head) : Bool × Nat := (x.rescueReq, x.ctx.rescueCount)

theorem plea_eq_iff {x y : Head} :
    y.plea = x.plea ↔ y.rescueReq = x.rescueReq ∧ y.ctx.rescueCount = x.ctx.rescueCount := Prod.mk.injEq .. ▸ Iff.rfl

theorem plea_modHead {f : Head → Head} (e : (f (s.head h)).plea = (s.head h).plea) (k : HeadId) :
    ((s.modHead h f).head k).plea = (s.head k).plea := by
  by_cases own : k = h
  · subst own; rw [State.head_modHead_same, e]
  · rw [State.head_modHead_other _ _ own]

theorem countDev_plea (d : Deviation) (k : HeadId) : ((s.countDev h d).head k).plea = (s.head k).plea :=
  plea_modHead rfl k

theorem countBorrowed_plea (sel : Option (HeadId × SlotKind)) (s : State) (k : HeadId) :
    ((countBorrowed sel s).head k).plea = (s.head k).plea := by
  unfold countBorrowed
  split
  · exact countDev_plea ..
  · rfl

theorem powerMarks_plea (g : GenId) (h : HeadId) (s : State) (k : HeadId) :
    ((powerMarks g h s).head k).plea = (s.head k).plea := by
  have derates : ((derateHead g h s).head k).plea = (s.head k).plea := by
    unfold derateHead
    split
    · exact (countDev_plea ..).trans (plea_modHead rfl k)
    · rfl
  unfold powerMarks
  split
  · exact (plea_modHead rfl k).trans derates
  · exact derates

theorem buildDrive_plea (g : GenId) (served : Option HeadId) (s : State) (k : HeadId) :
    ((buildDrive g served s).head k).plea = (s.head k).plea := by
  unfold buildDrive
  split
  · rfl
  · dsimp only
    split
    · rw [State.head_modRp, powerEffects_eq, State.head_modGen]
      exact powerMarks_plea ..
    · rfl

/-! ### A grant and a preemption (R98, R100) -/

/-- From `s` to `t` head `h` has been granted the service of `g`, whoever asks again for it. -/
structure Placed (g : GenId) (h : HeadId) (s t : State) : Prop where
  place : (t.gen g).inService = some h
  timer : (t.gen g).limitTimer = some s.mu.config.rescueLimit
  own : (t.head h).plea = (false, count16 (s.head h).ctx.rescueCount)

theorem grantRescue_plea (other : k ≠ h) : ((grantRescue g h s).head k).plea = (s.head k).plea := by
  unfold grantRescue
  dsimp only
  rw [countDev_plea, State.head_modGen, State.head_modHead_other _ _ other]

theorem grantRescue_placed (g : GenId) (h : HeadId) (s : State) : Placed g h s (grantRescue g h s) := by
  refine ⟨?_, ?_, ?_⟩ <;> unfold grantRescue <;> dsimp only
  · rw [State.countDev_eq, State.gen_modHead, State.gen_modGen_same]
  · rw [State.countDev_eq, State.gen_modHead, State.gen_modGen_same, State.modHead_mu]
  · rw [countDev_plea, State.head_modGen, State.head_modHead_same]; rfl

/-- The winner of a preemption is placed, and the head it displaces asks again; no other request changes (R100). -/
theorem preempt_placed (other : h ≠ k) : Placed g h s (preempt g k h s)
    ∧ ((preempt g k h s).head k).plea = (true, (s.head k).ctx.rescueCount)
    ∧ ∀ j, j ≠ h → j ≠ k → ((preempt g k h s).head j).plea = (s.head j).plea := by
  unfold preempt
  dsimp only
  generalize made : s.modGen g (fun x => { x with inService := none, limitTimer := none }) = w
  have heads : ∀ j, w.head j = s.head j := fun j => by rw [← made, State.head_modGen]
  have mu : w.mu = s.mu := by rw [← made, State.modGen_mu]
  obtain ⟨place, timer, own⟩ := grantRescue_placed g h (w.modHead k fun x => { x with rescueReq := true })
  rw [State.modHead_mu, mu] at timer
  rw [State.head_modHead_other _ _ other, heads] at own
  refine ⟨⟨place, timer, own⟩, ?_, fun j away spared => ?_⟩
  · rw [grantRescue_plea other.symm, State.head_modHead_same, heads]; rfl
  · rw [grantRescue_plea away, State.head_modHead_other _ _ spared, heads]

/-! ### What the resolution of one generator reads and leaves -/

/-- `s` and `t` agree in what the resolution of `g` reads and changes: the configurations, the place and the order of
`g`, and the requests and counts of the heads bound to it. -/
structure RescueAgrees (g : GenId) (s t : State) : Prop where
  cfg : ∀ h, (t.head h).cfg = (s.head h).cfg
  config : t.mu.config = s.mu.config
  inService : (t.gen g).inService = (s.gen g).inService
  limitTimer : (t.gen g).limitTimer = (s.gen g).limitTimer
  rotation : (t.gen g).rotation = (s.gen g).rotation
  pleas : ∀ h, (s.head h).cfg.binding = some g → (t.head h).plea = (s.head h).plea

theorem RescueAgrees.refl (g : GenId) (s : State) : RescueAgrees g s s :=
  ⟨fun _ => rfl, rfl, rfl, rfl, rfl, fun _ _ => rfl⟩

theorem RescueAgrees.trans (a : RescueAgrees g s t) (b : RescueAgrees g t u) : RescueAgrees g s u where
  cfg h := (b.cfg h).trans (a.cfg h)
  config := b.config.trans a.config
  inService := b.inService.trans a.inService
  limitTimer := b.limitTimer.trans a.limitTimer
  rotation := b.rotation.trans a.rotation
  pleas h bound := (b.pleas h (by rw [a.cfg]; exact bound)).trans (a.pleas h bound)

/-- What the service of a slot leaves of the part and of generator `g`, pleas aside. -/
theorem RescueAgrees.of_scheduled (scheduled : Scheduled s t) (gen : t.gen g = s.gen g)
    (pleas : ∀ h, (s.head h).cfg.binding = some g → (t.head h).plea = (s.head h).plea) : RescueAgrees g s t :=
  ⟨scheduled.inputs.cfg, by rw [scheduled.mu], by rw [gen], by rw [gen], by rw [gen], pleas⟩

theorem RescueAgrees.candidate (a : RescueAgrees g s t) (h : HeadId) :
    t.candidate g h = true ↔ s.candidate g h = true := by
  simp only [candidate_iff, a.cfg]
  refine and_congr_right fun bound => ?_
  rw [(plea_eq_iff.1 (a.pleas h bound)).1]

theorem RescueAgrees.best (a : RescueAgrees g s t) (best : s.Best g h) : t.Best g h := by
  refine ⟨(a.candidate h).2 best.1, fun k asks => ?_⟩
  have least := best.2 k ((a.candidate k).1 asks)
  simpa only [State.rank, a.cfg] using least

theorem slotRounds_agrees (g : GenId) (s : State) : RescueAgrees g s (slotRounds s) := by
  have gen : (slotRounds s).gen g = (s.gen g).advanced := slotRounds_gen s g
  rw [Generator.advanced_frame] at gen
  exact ⟨(slotRounds_inputs s).cfg, by rw [(slotRounds_inputs s).mu], by rw [gen], by rw [gen], by rw [gen],
    fun h _ => by rw [slotRounds_head]⟩

theorem countBorrowed_agrees (g : GenId) (sel : Option (HeadId × SlotKind)) (s : State) :
    RescueAgrees g s (countBorrowed sel s) :=
  .of_scheduled (countBorrowed_scheduled ..) (countBorrowed_gen ..) fun _ _ => countBorrowed_plea ..

/-- The other generator's resolution grants and displaces heads that are bound to that one (R103). -/
theorem resolveRescue_agrees_other {j : GenId} (l : s.RescueSafe) (other : g ≠ j) :
    RescueAgrees g s (resolveRescue j s) := by
  refine .of_scheduled (resolveRescue_scheduled j s) (resolveRescue_gen_other other) fun h bound => ?_
  have away : ∀ {k}, (s.head k).cfg.binding = some j → h ≠ k := fun bound' e =>
    other (Option.some.inj (bound.symm.trans (e ▸ bound')))
  rcases resolveRescue_cases j s with e | ⟨w, asks, -, e⟩ | ⟨k, w, asks, served, better, e⟩ <;> rw [e]
  · exact grantRescue_plea (away ((candidate_iff s j w).1 asks).1)
  · have distinct : w ≠ k := fun same => lt_irrefl _ (same ▸ better)
    exact (preempt_placed distinct).2.2 h (away ((candidate_iff s j w).1 asks).1) (away (l.places j k served).1)

/-- Building the frames changes histories and marks alone. -/
theorem slotService_agrees (g : GenId) (v : State) : RescueAgrees g (afterB v) (slotService v) := by
  have gen := slotService_gen v g
  have scheduled : Scheduled (afterB v) (slotService v) := (buildDrive_scheduled ..).after (buildDrive_scheduled ..)
  refine ⟨scheduled.inputs.cfg, by rw [scheduled.mu], by rw [gen]; rfl, by rw [gen]; rfl, by rw [gen]; rfl,
    fun h _ => ?_⟩
  rw [slotService_eq, buildDrive_plea, afterFrameA, buildDrive_plea]

/-! ### The resolution within the expiry (R74) -/

/-- The part when generator `g` is resolved: A first, then B. -/
def slotStage (v : State) : GenId → State
  | .a => v
  | .b => afterA v

/-- What comes before the resolution of `g` plays no part in it. -/
theorem slotStage_agrees (l : v.RescueSafe) (g : GenId) : RescueAgrees g v (slotStage v g) := by
  cases g with
  | a => exact .refl ..
  | b => exact (resolveRescue_agrees_other l (by decide)).trans (countBorrowed_agrees ..)

/-- What comes after the resolution of `g` leaves what it has done. -/
theorem slotService_agrees_resolved (l : v.RescueSafe) (g : GenId) :
    RescueAgrees g (resolveRescue g (slotStage v g)) (slotService v) := by
  have served : (afterA v).RescueSafe := (serveGenerator_keepsRescue .a none v).safe l
  cases g with
  | a =>
    refine .trans (countBorrowed_agrees .a (slotChoiceA v) _) ?_
    refine .trans (resolveRescue_agrees_other (j := .b) served (by decide)) ?_
    exact (countBorrowed_agrees ..).trans (slotService_agrees ..)
  | b => exact (countBorrowed_agrees ..).trans (slotService_agrees ..)

theorem RescueAgrees.requests (a : RescueAgrees g s t) (bound : (s.head h).cfg.binding = some g) :
    (t.head h).rescueReq = (s.head h).rescueReq := (plea_eq_iff.1 (a.pleas h bound)).1

/-! ### From before the expiry to after it -/

/-- From `s` to `t` the place of `g`, its timer and the requests of the heads bound to it stay. -/
def PlaceKept (g : GenId) (s t : State) : Prop :=
  (t.gen g).inService = (s.gen g).inService ∧ (t.gen g).limitTimer = (s.gen g).limitTimer
    ∧ ∀ k, (s.head k).cfg.binding = some g → (t.head k).rescueReq = (s.head k).rescueReq

/-- From `s` to `t` head `h` is granted the place of `g`, and no request stands otherwise but that of a head it
displaces. -/
def PlaceGranted (g : GenId) (h : HeadId) (s t : State) : Prop :=
  (t.gen g).inService = some h ∧ (t.gen g).limitTimer = some s.mu.config.rescueLimit
    ∧ (t.head h).rescueReq = false ∧ (t.head h).ctx.rescueCount = count16 (s.head h).ctx.rescueCount
    ∧ ∀ k, k ≠ h → (s.head k).cfg.binding = some g → (s.gen g).inService ≠ some k →
        (t.head k).rescueReq = (s.head k).rescueReq

/-- The resolution of `g` takes place on `u`, between `s` and `t`, and all else between them plays no part in it. -/
structure ResolvedBetween (g : GenId) (s u t : State) : Prop where
  before : RescueAgrees g s u
  after : RescueAgrees g (resolveRescue g u) t

theorem slotService_resolves (l : s.RescueSafe) (g : GenId) :
    ResolvedBetween g s (slotStage (slotRounds s) g) (slotService (slotRounds s)) := by
  have rounds : (slotRounds s).RescueSafe := l.congr (rescuePart_slotRounds s)
  exact ⟨(slotRounds_agrees g s).trans (slotStage_agrees rounds g), slotService_agrees_resolved rounds g⟩

namespace ResolvedBetween

theorem mode (r : ResolvedBetween g s u t) : u.mu.config.mode g = s.mu.config.mode g := by rw [r.before.config]

theorem keeps (r : ResolvedBetween g s u t) (e : resolveRescue g u = u) : PlaceKept g s t := by
  have whole : RescueAgrees g s t := r.before.trans (e ▸ r.after)
  exact ⟨whole.inService, whole.limitTimer, fun k => whole.requests⟩

/-- The heads bound to `g` plead after the expiry as the resolution has left them. -/
theorem plea (r : ResolvedBetween g s u t) (bound : (s.head k).cfg.binding = some g) :
    (t.head k).plea = ((resolveRescue g u).head k).plea :=
  r.after.pleas k (by rw [(resolveRescue_scheduled g u).inputs.cfg, r.before.cfg]; exact bound)

theorem grants (r : ResolvedBetween g s u t) (bound : (s.head h).cfg.binding = some g)
    (placed : Placed g h u (resolveRescue g u))
    (others : ∀ k, k ≠ h → (s.gen g).inService ≠ some k → ((resolveRescue g u).head k).plea = (u.head k).plea) :
    PlaceGranted g h s t := by
  obtain ⟨request, counted⟩ := Prod.mk.inj ((r.plea bound).trans placed.own)
  rw [(plea_eq_iff.1 (r.before.pleas h bound)).2] at counted
  refine ⟨r.after.inService.trans placed.place, ?_, request, counted, fun k away bound' spared => ?_⟩
  · rw [r.after.limitTimer, placed.timer, r.before.config]
  · exact (plea_eq_iff.1 ((r.plea bound').trans ((others k away spared).trans (r.before.pleas k bound')))).1

/-- A head granted an empty place changes its own request alone. -/
theorem fills (r : ResolvedBetween g s u t) (bound : (s.head h).cfg.binding = some g)
    (e : resolveRescue g u = grantRescue g h u) : PlaceGranted g h s t :=
  r.grants bound (e ▸ grantRescue_placed g h u) fun k away _ => by rw [e]; exact grantRescue_plea away

theorem fixed_empty (r : ResolvedBetween g s u t) (mode : s.mu.config.mode g = .fixed) (best : s.Best g h)
    (empty : (s.gen g).inService = none) : PlaceGranted g h s t :=
  r.fills ((candidate_iff s g h).1 best.1).1
    (resolveRescue_fixed_empty (r.mode.trans mode) (r.before.best best) (r.before.inService.trans empty))

/-- A strictly better winner takes the place, and the head it displaces asks again, its count as it was (R100). -/
theorem fixed_better (r : ResolvedBetween g s u t) (mode : s.mu.config.mode g = .fixed) (best : s.Best g h)
    (held : (s.gen g).inService = some k) (bound : (s.head k).cfg.binding = some g)
    (better : (s.head h).cfg.priority < (s.head k).cfg.priority) :
    PlaceGranted g h s t ∧ (t.head k).rescueReq = true ∧ (t.head k).ctx.rescueCount = (s.head k).ctx.rescueCount := by
  have preempts : resolveRescue g u = preempt g k h u :=
    (resolveRescue_fixed_held (r.mode.trans mode) (r.before.best best) (r.before.inService.trans held)).trans
      (if_pos (by rw [r.before.cfg, r.before.cfg]; exact better))
  have distinct : h ≠ k := fun same => lt_irrefl _ (same ▸ better)
  obtain ⟨placed, displaced, others⟩ := preempt_placed (s := u) (g := g) distinct
  rw [← preempts] at placed displaced others
  obtain ⟨again, count⟩ := Prod.mk.inj ((r.plea bound).trans displaced)
  exact ⟨r.grants ((candidate_iff s g h).1 best.1).1 placed fun j away spared =>
      others j away fun e => spared (e ▸ held),
    again, count.trans (plea_eq_iff.1 (r.before.pleas k bound)).2⟩

theorem fixed_kept (r : ResolvedBetween g s u t) (mode : s.mu.config.mode g = .fixed) (best : s.Best g h)
    (held : (s.gen g).inService = some k) (worse : (s.head k).cfg.priority ≤ (s.head h).cfg.priority) :
    PlaceKept g s t :=
  r.keeps ((resolveRescue_fixed_held (r.mode.trans mode) (r.before.best best) (r.before.inService.trans held)).trans
    (if_neg (by rw [r.before.cfg, r.before.cfg]; exact Nat.not_lt.2 worse)))

theorem rotating_empty (r : ResolvedBetween g s u t) {pre post : List HeadId} (mode : s.mu.config.mode g = .rotating)
    (empty : (s.gen g).inService = none) (order : (s.gen g).rotation = pre ++ h :: post)
    (asks : s.candidate g h = true) (first : ∀ k ∈ pre, ¬ s.candidate g k = true) : PlaceGranted g h s t := by
  have wins : u.winnerRotating g = some h := winnerRotating_eq (r.before.rotation.trans order)
    ((r.before.candidate h).2 asks) fun k m c => first k m ((r.before.candidate k).1 c)
  exact r.fills ((candidate_iff s g h).1 asks).1
    (resolveRescue_rotating_empty (r.mode.trans mode) wins (r.before.inService.trans empty))

end ResolvedBetween

end Sys2Proof.Machine

namespace Sys2Proof.Proofs

open Sys2Proof.Machine

/-- Settles O51: the expiry resolves `g` on a part that agrees with the one before it, and leaves what the resolution
does (`slotService_resolves`); the winner is `State.Best.winnerFixed` in FIXED mode and `winnerRotating_eq` in ROTATING
mode. -/
theorem rescueGrantsBestCandidate : Obligations.RescueGrantsBestCandidate := by
  intro s g running due legal asks rank best granted kept
  have r := slotService_resolves (rescueSafe_iff.2 legal) g
  have asking : ∀ h, s.candidate g h = true ↔ asks h := candidate_iff s g
  have prefers : ∀ h, best h → s.Best g h := fun h b =>
    ⟨(asking h).2 b.1, fun k c => b.2 k ((asking k).1 c)⟩
  refine ⟨_, exec_slotExpiry running due, fun none => r.keeps ?_, fun mode h b => ⟨?_, fun k held => ⟨?_, ?_⟩⟩,
    fun mode => ⟨fun held => r.keeps ?_, fun pre post h empty order a first => ?_⟩⟩
  · exact resolveRescue_of_no_candidate fun h c => none h ((asking h).1 ((r.before.candidate h).1 c))
  · exact r.fixed_empty mode (prefers h b)
  · exact r.fixed_better mode (prefers h b) held (legal.1 g k held).1
  · exact r.fixed_kept mode (prefers h b) held
  · exact resolveRescue_rotating_held (r.mode.trans mode) (by rw [r.before.inService]; exact held)
  · exact r.rotating_empty mode empty order ((asking h).2 a) fun k m c => first k m ((asking k).1 c)

end Sys2Proof.Proofs
end

section
/-! PROOFS. The part's own reads and the commands that set up its generators: READ STATUS, READ CONFIG, READ COUNTERS,
CLEAR GENERATOR and WRITE PART CONFIG (R111, R120, R123-R125, R157, R194-R199). -/

namespace Sys2Proof.Machine

variable {s : State}

/-! ### What READ STATUS and READ CONFIG say (R130, R157, R198) -/

/-- FAULT_N is low exactly while a head or a generator is FAULTED (R157). -/
theorem faultN_eq_false_iff (s : State) :
    s.faultN = false ↔ (∃ h, (s.head h).ctx.state = .faulted) ∨ ∃ g, (s.gen g).state = .faulted := by
  have gens : (∃ g, (s.gen g).state = .faulted) ↔ s.gens.a.state = .faulted ∨ s.gens.b.state = .faulted :=
    ⟨fun ⟨g, e⟩ => by cases g with | a => exact .inl e | b => exact .inr e,
      fun e => e.elim (fun a => ⟨.a, a⟩) fun b => ⟨.b, b⟩⟩
  simp only [State.faultN, gens, Bool.not_eq_false', Bool.or_eq_true, List.any_eq_true, beq_iff_eq, mem_allHeads,
    true_and, or_assoc]

/-- A head's verdict is SATISFIED exactly where its three inputs are (R130). -/
theorem verdict_iff (s : State) (h : HeadId) : s.verdict h = true ↔
    (s.head h).inputs.part.satisfied = true ∧ (s.head h).inputs.clamp.satisfied = true
      ∧ (s.head h).inputs.coil.satisfied = true := by
  simp only [State.verdict, HeadInputs.verdict, Bool.and_eq_true, and_assoc]

/-- The nine kinds stand in the order of their places (R139). -/
theorem map_idx_all : FaultKind.all.map FaultKind.idx = List.finRange 9 := by decide

/-- The policy's bytes are those of the kinds in the order of R139. -/
theorem policyBytes_eq (v : Vector PolicyEntry 9) :
    policyBytes v = FaultKind.all.flatMap fun k => [maskCode v[k.idx].masked, v[k.idx].severity.code] := by
  have entries : v.toList = FaultKind.all.map fun k => v[k.idx] := by
    have read : FaultKind.all.map (fun k => v[k.idx]) = (FaultKind.all.map FaultKind.idx).map (v[·]) := by
      rw [List.map_map]; rfl
    rw [read, map_idx_all, ← List.ofFn_eq_map, ← Vector.toList_ofFn]
    exact congrArg Vector.toList (Vector.ext fun i _ => by simp)
  rw [policyBytes, entries, List.flatMap_map]

/-! ### The checks of WRITE PART CONFIG (R195) -/

@[simp] theorem modeOf_code (m : RescueMode) : modeOf m.code = some m := by cases m <;> rfl

theorem modeOf_none {b : Byte} (out : 2 ≤ b.toNat) : modeOf b = none := by
  rw [modeOf, if_neg, if_neg] <;> rintro rfl <;> simp at out

theorem anyHolds_iff : s.anyHolds = true ↔ ∃ h, s.holds h = true := by
  simp [State.anyHolds, mem_allHeads]

/-- What may not change while a joint is held: the slot period, the stations and the ratings. -/
theorem heldFieldsDiffer_iff {old new : PartConfig} : old.heldFieldsDiffer new = true ↔
    ¬ (new.slotPeriod = old.slotPeriod ∧ new.stationA = old.stationA ∧ new.stationB = old.stationB
      ∧ new.ratingA = old.ratingA ∧ new.ratingB = old.ratingB) := by
  simp only [PartConfig.heldFieldsDiffer, Bool.or_eq_true, bne_iff_ne]
  tauto

/-- A mode that is none, or a voltage window that is empty after the clamps, is refused (R195). -/
theorem doWritePartConfig_of_bad {w : PartConfigArg} (u : State)
    (bad : 2 ≤ w.modeA.toNat ∨ 2 ≤ w.modeB.toNat ∨ min w.vf.toNat 1000 ≤ min w.vt.toNat 1000) :
    doWritePartConfig w u = refuse .badArgument u := by
  unfold doWritePartConfig
  split
  · next modeA modeB =>
    rcases bad with outA | outB | empty
    · exact nomatch (modeOf_none outA).symm.trans modeA
    · exact nomatch (modeOf_none outB).symm.trans modeB
    · exact if_pos empty
  · rfl

/-- With its modes and its voltage window in order, the check left is that of the held fields (R195). -/
theorem doWritePartConfig_of_fine {w : PartConfigArg} {ma mb : RescueMode} (u : State) (modeA : w.modeA = ma.code)
    (modeB : w.modeB = mb.code) (order : min w.vt.toNat 1000 < min w.vf.toNat 1000) :
    doWritePartConfig w u =
      if u.anyHolds && u.mu.config.heldFieldsDiffer (clampConfig w ma mb) then refuse .inUse u
      else accept ((clampConfig w ma mb).bytes ++ [flagByte (decide (clampConfig w ma mb ≠ carriedConfig w ma mb))])
        (writeConfig (clampConfig w ma mb) u) := by
  rw [doWritePartConfig, modeA, modeB, modeOf_code, modeOf_code]
  exact if_neg (Nat.not_le.2 order)

/-! ### A generator under a new configuration (R110, R111, R119, R120) -/

theorem hasGen_iff {c : PartConfig} {g : GenId} : c.hasGen g = true ↔ c.station g ≠ 0 ∧ c.rating g ≠ 0 := by
  simp only [PartConfig.hasGen, Bool.and_eq_true, bne_iff_ne]

/-- The branches of R111 and R120, the generator configured or not by its station and its rating. -/
theorem reconfigured_eq (x : Generator) (old new : PartConfig) (g : GenId) :
    x.reconfigured old new g =
      if x.state = .off then
        if new.station g ≠ 0 ∧ new.rating g ≠ 0 then x.cleared .standby .none else x
      else if ¬ (new.station g ≠ 0 ∧ new.rating g ≠ 0) then x.cleared .off .none
      else if new.station g ≠ old.station g then x.cleared .standby x.cause
      else { x with budget := new.budget g x.bus } := by
  have gone : (!new.hasGen g) = true ↔ ¬ (new.station g ≠ 0 ∧ new.rating g ≠ 0) := by
    rw [← hasGen_iff, Bool.not_eq_true', Bool.not_eq_true]
  exact if_congr Iff.rfl (if_congr hasGen_iff rfl rfl) (if_congr gone rfl rfl)

/-- A write that changes a generator's state enters another than FAULTED and leaves no voltage: its notice has neither
cause nor voltage. -/
theorem reconfigured_state_cases (x : Generator) (old new : PartConfig) (g : GenId) :
    (x.reconfigured old new g).state = x.state
      ∨ ((x.reconfigured old new g).state ≠ .faulted ∧ (x.reconfigured old new g).bus = none) := by
  unfold Generator.reconfigured
  split
  · split
    · exact .inr ⟨nofun, rfl⟩
    · exact .inl rfl
  split
  · exact .inr ⟨nofun, rfl⟩
  split
  · exact .inr ⟨nofun, rfl⟩
  · exact .inl rfl

/-! ### The notices of a configuration write (R124) -/

/-- The Ring Port `rp` after the GEN_STATE notice of generator `g`, which a configuration write leaves in state `st`:
none where that is its state in `s` (R124; the cause byte 0 is log 16). -/
def State.genStateOffered (s : State) (rp : RingPort) (g : GenId) (st : GenState) : RingPort :=
  if st = (s.gen g).state then rp
  else s.offered rp [2, genCode g, (s.gen g).state.code, st.code, 0, 0, s.slots.number]

/-- The notice reads the configuration, the station, the slot number and the generator's state. -/
theorem genStateOffered_congr {t : State} {g : GenId} (mu : t.mu = s.mu) (station : t.rp.station = s.rp.station)
    (slots : t.slots = s.slots) (gen : t.gen g = s.gen g) (rp : RingPort) (st : GenState) :
    t.genStateOffered rp g st = s.genStateOffered rp g st := by
  simp only [State.genStateOffered, State.offered, State.ownStation, mu, station, slots, gen]

theorem genStateOffered_station (rp : RingPort) (g : GenId) (st : GenState) :
    (s.genStateOffered rp g st).station = rp.station := by
  unfold State.genStateOffered
  split
  · rfl
  · exact offered_station ..

/-- What an accepted write does to one generator: its change and its notice. -/
theorem reconfigure_eq (old : PartConfig) (g : GenId) (s : State) :
    reconfigure old g s =
      { s.modGen g (fun x => x.reconfigured old s.mu.config g) with
          rp := s.genStateOffered s.rp g ((s.gen g).reconfigured old s.mu.config g).state } := by
  unfold reconfigure State.genStateOffered
  dsimp only
  rw [State.gen_modGen_same]
  by_cases same : ((s.gen g).reconfigured old s.mu.config g).state = (s.gen g).state
  · rw [if_pos same, if_pos same]; cases g <;> rfl
  · obtain ⟨sound, noVoltage⟩ := (reconfigured_state_cases ..).resolve_left same
    rw [if_neg same, if_neg same, State.noticeGenState, State.notice_eq, State.gen_modGen_same, if_neg sound,
      noVoltage]
    cases g <;> rfl

/-- What it does to one generator plays no part in the notice of the other. -/
theorem reconfigure_offers {g k : GenId} (other : k ≠ g) {old : PartConfig} (rp : RingPort) (st : GenState) :
    (reconfigure old g s).genStateOffered rp k st = s.genStateOffered rp k st := by
  rw [reconfigure_eq]
  refine genStateOffered_congr (s := s) ?_ ?_ ?_ ?_ rp st
  · exact State.modGen_mu ..
  · exact genStateOffered_station ..
  · exact State.modGen_slots ..
  · exact State.gen_modGen_other s _ other

/-- An accepted WRITE PART CONFIG, whole: the record, the two generators, and the notices of the new record's station,
A's before B's (R196, log 23). -/
theorem writeConfig_eq (new : PartConfig) (s : State) :
    let written : State := { s with mu := { s.mu with config := new } }
    let after := fun g => (s.gen g).reconfigured s.mu.config new g
    writeConfig new s =
      { written with
          gens := ⟨after .a, after .b⟩,
          rp := written.genStateOffered (written.genStateOffered s.rp .a (after .a).state) .b (after .b).state } := by
  intro written after
  change reconfigure s.mu.config .b (reconfigure s.mu.config .a written) = _
  rw [reconfigure_eq _ .b, reconfigure_offers (g := .a) (k := .b) nofun, reconfigure_eq _ .a]
  rfl

end Sys2Proof.Machine

namespace Sys2Proof.Proofs

open Sys2Proof.Machine

/-- Settles O16: the reads' pages in order, each answered from the state it finds; the policy's bytes by
`policyBytes_eq`. -/
theorem partReadsAnswerAndKeepState : Obligations.PartReadsAnswerAndKeepState := by
  refine ⟨fun s => ⟨faultN_eq_false_iff s, verdict_iff s⟩, fun s r page takes => ⟨?_, ?_, ?_, fun out => ?_, ?_, ?_, ?_,
    fun out => ?_⟩⟩
  · rintro rfl; exact operatorRow_accepts takes rfl
  · rintro rfl; exact operatorRow_accepts takes rfl
  · rintro rfl; exact operatorRow_accepts takes rfl
  · refine operatorRow_refuses takes ?_
    rw [doReadStatus, if_neg, if_neg, if_neg] <;> rintro rfl <;> simp at out
  · rw [← policyBytes_eq]; exact operatorRow_accepts takes rfl
  · rintro rfl; exact operatorRow_accepts takes rfl
  · rintro rfl; exact operatorRow_accepts takes rfl
  · refine operatorRow_refuses takes ?_
    rw [doReadCounters, if_neg, if_neg] <;> rintro rfl <;> simp at out

/-- Settles O38: the branches of CLEAR GENERATOR in the order of R123, the notice of the entry written out. -/
theorem clearGeneratorEntersStandby : Obligations.ClearGeneratorEntersStandby := by
  intro s r takes
  have body : ∀ g, doClearGenerator (genCode g) { s with engEn := r.engEn } = _ := fun g => withGen_genCode ..
  refine ⟨fun b out => operatorRow_refuses takes (withGen_none out ..), fun g barred => ?_,
    fun g faulted quiet => operatorRow_does takes ?_⟩
  · refine operatorRow_refuses takes ((body g).trans ?_)
    by_cases faulted : (s.gen g).state = .faulted
    · exact (if_neg (not_not.2 faulted)).trans (if_pos (barred.resolve_left (not_not.2 faulted)))
    · exact if_pos faulted
  · refine (body g).trans ((if_neg (not_not.2 faulted)).trans ((if_neg quiet).trans ?_))
    rw [State.noticeGenState, State.notice_eq, State.gen_modGen_same]
    cases g <;> rfl

/-- Settles O35: the checks of R195 in order; the accepted write whole by `writeConfig_eq`, each generator's change by
`reconfigured_eq`. -/
theorem writePartConfigStoresClampedRecord : Obligations.WritePartConfigStoresClampedRecord := by
  intro s r w takes
  refine ⟨fun bad => engineerRow_refuses takes (doWritePartConfig_of_bad _ bad), fun ma mb modeA modeB order => ?_⟩
  intro old new held
  have body := doWritePartConfig_of_fine { s with engEn := r.engEn } modeA modeB order
  have inUse : (s.anyHolds && old.heldFieldsDiffer new) = true ↔ held := by
    rw [Bool.and_eq_true, anyHolds_iff, heldFieldsDiffer_iff]
  refine ⟨fun h => engineerRow_refuses takes (body.trans (if_pos (inUse.2 h))), fun free =>
    ⟨writeConfig new s, decide (new ≠ carriedConfig w ma mb),
      engineerRow_does takes ((body.trans (if_neg fun h => free (inUse.1 h))).trans ?_), decide_eq_true_iff, ?_⟩⟩
  · rw [writeConfig_eq, writeConfig_eq]; rfl
  · rw [writeConfig_eq]
    refine ⟨rfl, rfl, rfl, rfl, rfl, rfl, rfl, rfl, rfl, fun g => ?_, rfl⟩
    cases g <;> exact reconfigured_eq ..

end Sys2Proof.Proofs
end

section
/-! PROOFS. The laws of fault records and interlock inputs (R126, R128, R142, R143, R150): what they read of the part,
and the changes of one record and of one input that keep them. -/

namespace Sys2Proof.Machine

variable {s t u : State} {h : HeadId}

/-! ### One fault record (R142, R143, R150) -/

/-- A selection of the nine kinds stands in their order without repeats (R142). -/
theorem kinds_in_order (p : FaultKind → Bool) :
    FaultKind.all.filter p = FaultKind.all.filter fun k => (FaultKind.all.filter p).contains k :=
  List.filter_congr fun k mem => by simp [List.mem_filter, mem]

theorem addKind_in_order (k : FaultKind) (st : List FaultKind) :
    addKind k st = FaultKind.all.filter fun j => (addKind k st).contains j := kinds_in_order _

/-- A record whose status alone has gained a kind stays legal (R144 step 1). -/
theorem FaultRecord.Legal.addKind {f : FaultRecord} (l : f.Legal) (k : FaultKind) :
    FaultRecord.Legal { f with status := Machine.addKind k f.status } := by
  obtain ⟨-, named, captured⟩ := l
  exact ⟨addKind_in_order .., fun j e => (mem_addKind ..).2 (.inr (named j e)), captured⟩

/-- The record after a fault is legal: an unmasked kind that finds the pointer empty takes it, with its capture, and
is present itself (R143, R148). -/
theorem recordAfter_legal (l : (s.head h).fr.Legal) (k : FaultKind) (act : FaultAction) :
    (s.recordAfter h k act).Legal := by
  cases masked : s.masked k with
  | true => simpa [State.recordAfter, masked] using l.addKind k
  | false =>
    cases pointer : (s.head h).fr.pointer with
    | some j => simpa [State.recordAfter, masked, pointer] using pointer ▸ l.addKind k
    | none =>
      simp only [State.recordAfter, masked, pointer]
      refine ⟨addKind_in_order .., fun j e => ?_, rfl⟩
      obtain rfl := Option.some.inj e
      exact (mem_addKind ..).2 (.inl rfl)

/-- A record stays legal where a set of kinds is cleared: the pointer goes with its kind, and the capture with the
pointer (R150). -/
theorem FaultRecord.Legal.cleared {f : FaultRecord} (l : f.Legal) (ks : List FaultKind) : (f.cleared ks).Legal := by
  obtain ⟨ordered, named, captured⟩ := l
  have ordered' : f.status.filter (fun k => !ks.contains k) =
      FaultKind.all.filter fun k => (f.status.filter fun k => !ks.contains k).contains k := by
    rw [ordered, List.filter_filter]; exact kinds_in_order _
  refine ⟨ordered', ?_⟩
  cases pointer : f.pointer with
  | none =>
    rw [pointer] at captured
    simpa [FaultRecord.cleared, pointer] using captured
  | some k =>
    rw [pointer] at captured
    have present := named k pointer
    by_cases gone : k ∈ ks
    · simp [FaultRecord.cleared, pointer, present, gone]
    · simp [FaultRecord.cleared, pointer, present, gone, captured]

theorem FaultRecord.legal_empty : FaultRecord.Legal ⟨[], none, none⟩ := ⟨rfl, nofun, rfl⟩

/-! ### One input (R126, R128, R129) -/

theorem Input.reset_legal : Input.reset.Legal := ⟨nofun, fun _ => ⟨rfl, rfl⟩⟩

theorem Input.drop_legal (i : Input) : i.drop.Legal := ⟨nofun, fun _ => ⟨rfl, rfl⟩⟩

/-- A frame shows an input a raw state, and marks it only where it stays UNSATISFIED (R128). -/
theorem Input.show_legal (i : Input) (p : Polarity) (raw : Bool) : (i.show p raw).Legal := by
  rcases judge_cases { i with raw := some raw } (polarityJudges p raw) with ⟨-, e⟩ | ⟨-, -, e⟩ | ⟨-, -, -, e⟩ <;>
    rw [Input.show, e]
  · exact ⟨nofun, nofun⟩
  · exact ⟨nofun, nofun⟩
  · exact ⟨fun _ => rfl, nofun⟩

/-- The law of a head's three inputs. -/
def HeadInputs.Legal (i : HeadInputs) : Prop := i.part.Legal ∧ i.clamp.Legal ∧ i.coil.Legal

theorem HeadInputs.drop_legal (i : HeadInputs) : i.drop.Legal :=
  ⟨i.part.drop_legal, i.clamp.drop_legal, i.coil.drop_legal⟩

/-! ### The part the laws read -/

/-- What the laws read of a head. -/
def Head.records (x : Head) : FaultRecord × HeadInputs := (x.fr, x.inputs)

/-- What the laws read of the part. -/
def State.recordPart (s : State) : (HeadId → FaultRecord × HeadInputs) × (GroupId → Input) :=
  (fun h => (s.head h).records, fun g => (s.group g).flow)

theorem recordPart_eq_iff : t.recordPart = s.recordPart ↔
    (∀ h, (t.head h).records = (s.head h).records) ∧ ∀ g, (t.group g).flow = (s.group g).flow := by
  simp only [State.recordPart, Prod.mk.injEq, funext_iff]

/-- A head's own event that leaves what the laws read of it. -/
theorem recordPart_of_others (others : OthersKept h s t) (own : (t.head h).records = (s.head h).records) :
    t.recordPart = s.recordPart := by
  refine recordPart_eq_iff.2 ⟨fun k => ?_, fun g => by rw [State.group_of_interlocks others.interlocks]⟩
  by_cases n : k = h
  · subst n; exact own
  · rw [others.heads k n]

theorem recordPart_modHead {f : Head → Head} (h : HeadId) (e : (f (s.head h)).records = (s.head h).records) :
    (s.modHead h f).recordPart = s.recordPart :=
  recordPart_of_others ⟨fun _ n => State.head_modHead_other s f n, rfl, rfl, rfl, rfl, rfl, rfl, rfl, rfl⟩
    (by rw [State.head_modHead_same]; exact e)

/-- The part these laws read lies behind the port. -/
theorem recordPart_of_inner (e : t.inner = s.inner) : t.recordPart = s.recordPart := by
  have part : ∀ v : State, v.recordPart = v.inner.recordPart := fun _ => rfl
  rw [part t, part s, e]

section
variable (s)

@[simp] theorem recordPart_countDev (h : HeadId) (d : Deviation) : (s.countDev h d).recordPart = s.recordPart :=
  recordPart_modHead h rfl

@[simp] theorem recordPart_modGen (g : GenId) (f : Generator → Generator) :
    (s.modGen g f).recordPart = s.recordPart :=
  recordPart_eq_iff.2 ⟨fun h => by rw [State.head_modGen], fun k => by rw [State.group_modGen]⟩

@[simp] theorem recordPart_notice (b : List Byte) : (s.notice b).recordPart = s.recordPart :=
  recordPart_eq_iff.2 ⟨fun h => by rw [State.head_notice], fun g => by rw [State.group_notice]⟩

@[simp] theorem recordPart_noticeGenState (g : GenId) (left : GenState) :
    (s.noticeGenState g left).recordPart = s.recordPart := recordPart_notice s _

@[simp] theorem recordPart_startIdleIfUnheld (g : GenId) : (startIdleIfUnheld g s).recordPart = s.recordPart := by
  rw [startIdleIfUnheld_spec, recordPart_modGen]

@[simp] theorem recordPart_endRescue (g : GenId) : (endRescue g s).recordPart = s.recordPart := by
  obtain ⟨f, e⟩ := endRescue_gen_only s g
  rw [e, recordPart_modGen]

@[simp] theorem recordPart_dropRescue (h : HeadId) : (dropRescue h s).recordPart = s.recordPart :=
  recordPart_of_others (dropRescue_others s h) (by rw [dropRescue_head_same]; rfl)

@[simp] theorem recordPart_suspend (cause : SuspendCause) (h : HeadId) :
    (suspend cause h s).recordPart = s.recordPart :=
  (recordPart_dropRescue ..).trans (recordPart_modHead h rfl)

@[simp] theorem recordPart_finishJoint (o : JointOutcome) (f : Option (List Criterion)) (k : Option FaultKind)
    (h : HeadId) : (finishJoint o f k h s).recordPart = s.recordPart :=
  recordPart_of_others (finishJoint_others s o f k h) (by rw [finishJoint_head_same]; rfl)

@[simp] theorem recordPart_finishNormally (h : HeadId) : (finishNormally h s).recordPart = s.recordPart := by
  have ends : ∀ l : List Criterion, (if l = [] then finishJoint .accept none none h s
      else finishJoint .reject (some l) none h s).recordPart = s.recordPart := fun l => by
    split <;> exact recordPart_finishJoint ..
  exact ends _

end

end Sys2Proof.Machine
end


section
/-! PROOFS. Every event of a head, a generator, a sample, an interlock frame and a slot keeps the laws of fault records
and inputs (R126-R129, R142-R144). -/

namespace Sys2Proof.Machine

variable {s t u : State} {g : GenId} {h : HeadId}

/-! ### Keeping the laws -/

/-- From `s` to `t` each head's fault record and inputs and each group's coolant input stay legal. -/
structure RecordsKept (s t : State) : Prop where
  faults : ∀ h, (s.head h).fr.Legal → (t.head h).fr.Legal
  inputs : ∀ h, (s.head h).inputs.Legal → (t.head h).inputs.Legal
  flows : ∀ g, (s.group g).flow.Legal → (t.group g).flow.Legal

theorem RecordsKept.refl (s : State) : RecordsKept s s := ⟨fun _ => id, fun _ => id, fun _ => id⟩

theorem RecordsKept.trans (a : RecordsKept s t) (b : RecordsKept t u) : RecordsKept s u :=
  ⟨fun h => b.faults h ∘ a.faults h, fun h => b.inputs h ∘ a.inputs h, fun g => b.flows g ∘ a.flows g⟩

theorem RecordsKept.quiet (e : t.recordPart = s.recordPart) : RecordsKept s t := by
  obtain ⟨heads, flows⟩ := recordPart_eq_iff.1 e
  have fr : ∀ h, (t.head h).fr = (s.head h).fr := fun h => congrArg Prod.fst (heads h)
  have inputs : ∀ h, (t.head h).inputs = (s.head h).inputs := fun h => congrArg Prod.snd (heads h)
  exact ⟨fun h l => by rw [fr]; exact l, fun h l => by rw [inputs]; exact l, fun g l => by rw [flows]; exact l⟩

/-- What stands before the first change of what the laws read plays no part. -/
theorem RecordsKept.after (b : RecordsKept t u) (e : t.recordPart = s.recordPart) : RecordsKept s u :=
  (RecordsKept.quiet e).trans b

/-- What stands after the last change of what the laws read plays no part. -/
theorem RecordsKept.then (a : RecordsKept s t) (e : u.recordPart = t.recordPart) : RecordsKept s u := a.trans (.quiet e)

theorem RecordsKept.foldl {α : Type} {f : State → α → State} (each : ∀ s a, RecordsKept s (f s a)) (l : List α)
    (s : State) : RecordsKept s (l.foldl f s) := by
  induction l generalizing s with
  | nil => exact .refl s
  | cons a l ih => exact (each s a).trans (ih _)

/-- An event of two branches. -/
theorem RecordsKept.ite {c : Prop} [Decidable c] (a : RecordsKept s t) (b : RecordsKept s u) :
    RecordsKept s (if c then t else u) := by
  split
  · exact a
  · exact b

/-- An event that happens under a condition. -/
theorem RecordsKept.when {c : Prop} [Decidable c] (a : RecordsKept s t) : RecordsKept s (if c then t else s) :=
  a.ite (.refl s)

/-- A head's own change that keeps its record and its inputs legal. -/
theorem RecordsKept.modHead {f : Head → Head} (h : HeadId)
    (fault : (s.head h).fr.Legal → (f (s.head h)).fr.Legal)
    (inputs : (s.head h).inputs.Legal → (f (s.head h)).inputs.Legal) : RecordsKept s (s.modHead h f) := by
  refine ⟨fun k => ?_, fun k => ?_, fun _ => id⟩ <;> by_cases n : k = h
  · subst n; rw [State.head_modHead_same]; exact fault
  · rw [State.head_modHead_other _ _ n]; exact id
  · subst n; rw [State.head_modHead_same]; exact inputs
  · rw [State.head_modHead_other _ _ n]; exact id

/-! ### Faults (R142-R145) -/

/-- The recording of a fault keeps the laws where the new record is legal. -/
theorem RecordsKept.noted {fr : FaultRecord} {rp : RingPort} (fault : (s.head h).fr.Legal → fr.Legal) :
    RecordsKept s (s.noted h fr rp) :=
  .then (.modHead (f := fun x => { x with fr := fr }) h fault id) rfl

theorem applyAction_keepsRecords (h : HeadId) (k : FaultKind) (act : FaultAction) (s : State) :
    RecordsKept s (applyAction h k act s) := by
  rcases applyAction_cases s h k act with ⟨-, e⟩ | ⟨-, e⟩ | ⟨-, e⟩ <;> rw [e]
  · exact .quiet (recordPart_finishJoint ..)
  · exact .quiet ((recordPart_suspend ..).trans (recordPart_modHead h rfl))
  · exact .refl s

/-- A fault's record is legal, and its action leaves it (R142-R145). -/
theorem takeFault_keepsRecords (h : HeadId) (k : FaultKind) (s : State) : RecordsKept s (takeFault h k s) := by
  by_cases held : s.holds h = true
  · rw [takeFault_noted held]
    exact (RecordsKept.noted (recordAfter_legal · k _)).trans (applyAction_keepsRecords ..)
  · rw [takeFault_eq, if_neg held]
    exact .modHead h (·.addKind k) id

/-! ### Segments and the entry into a joint (R27, R29, R30, R135) -/

theorem entryTest_keepsRecords (h : HeadId) (s : State) : RecordsKept s (entryTest h s) :=
  .ite (takeFault_keepsRecords ..) (.ite (.refl s) (takeFault_keepsRecords ..))

theorem enterSegment_keepsRecords (h : HeadId) (s : State) : RecordsKept s (enterSegment h s) := by
  cases e : s.segment h with
  | none => rw [enterSegment, e]; exact .refl s
  | some seg =>
    have entered : (s.modHead h fun x => x.enter seg s.timebase s.threeSlots).recordPart = s.recordPart :=
      recordPart_modHead h rfl
    have left : RecordsKept s (if seg.isSoak then s.modHead h fun x => x.enter seg s.timebase s.threeSlots
        else dropRescue h (s.modHead h fun x => x.enter seg s.timebase s.threeSlots)) :=
      .ite (.quiet entered) (.quiet ((recordPart_dropRescue ..).trans entered))
    rw [enterSegment_eq s e]
    exact .ite (left.trans (entryTest_keepsRecords ..)) left

theorem exitSegment_keepsRecords (h : HeadId) (s : State) : RecordsKept s (exitSegment h s) := by
  have left : (leaveSegment h s).recordPart = s.recordPart :=
    (recordPart_dropRescue ..).trans (recordPart_modHead h rfl)
  refine .after ?_ left
  rcases exitSegment_cases h s with ⟨rc, -, -, e⟩ | ⟨-, e⟩ <;> rw [e]
  · exact (enterSegment_keepsRecords ..).after (recordPart_modHead h rfl)
  · exact .quiet (recordPart_finishNormally ..)

theorem enterJoint_keepsRecords (h : HeadId) (s : State) : RecordsKept s (enterJoint h s) := by
  have waits : RecordsKept s (s.modCtx h fun c => { c with state := .waitGen }) := .quiet (recordPart_modHead h rfl)
  unfold enterJoint
  dsimp only
  split
  · exact waits
  split
  · exact (enterSegment_keepsRecords ..).after (recordPart_modGen ..)
  · exact waits
  · exact waits
  · exact waits.then ((recordPart_noticeGenState ..).trans (recordPart_modGen ..))
  · exact waits.trans (takeFault_keepsRecords ..)

/-! ### Generators (chapter 6) -/

theorem faultGenerator_keepsRecords (g : GenId) (cause : GenCause) (s : State) :
    RecordsKept s (faultGenerator g cause s) := by
  unfold faultGenerator
  refine .after (.foldl (fun t h => ?_) _ _)
    ((recordPart_noticeGenState ..).trans ((recordPart_endRescue ..).trans (recordPart_modGen ..)))
  unfold faultHeadOf
  exact .when (takeFault_keepsRecords ..)

theorem readyGenerator_keepsRecords (g : GenId) (s : State) : RecordsKept s (readyGenerator g s) := by
  unfold readyGenerator
  refine .then (.after (.foldl (fun t h => ?_) _ _) (recordPart_modGen ..))
    ((recordPart_noticeGenState ..).trans (recordPart_startIdleIfUnheld ..))
  unfold releaseWaiting
  exact .when (enterSegment_keepsRecords ..)

theorem applyReport_keepsRecords (g : GenId) (r : Reported) (s : State) : RecordsKept s (applyReport g r s) := by
  rcases applyReport_cases s g r with ⟨-, -, -, e⟩ | ⟨-, -, e⟩ | ⟨-, -, e⟩ | e <;> rw [e]
  · exact faultGenerator_keepsRecords ..
  · exact readyGenerator_keepsRecords ..
  · exact faultGenerator_keepsRecords ..
  · exact .refl s

@[simp] theorem recordPart_creditEnergy (m : Genstat) (s : State) : (creditEnergy m s).recordPart = s.recordPart := by
  rcases creditEnergy_cases s m with e | ⟨h, d, -, -, e⟩ | ⟨h, x, -, -, -, -, e⟩ <;> rw [e]
  · exact recordPart_countDev ..
  · exact recordPart_modHead h rfl

theorem takeGenstat_keepsRecords (p : List Byte) (s : State) : RecordsKept s (takeGenstat p s) := by
  unfold takeGenstat
  split
  · exact .quiet rfl
  · exact .ite (.refl s) ((applyReport_keepsRecords ..).after
      ((recordPart_creditEnergy ..).trans (recordPart_modGen ..)))

theorem idleExpiry_keepsRecords (g : GenId) (s : State) : RecordsKept s (idleExpiry g s) :=
  .when (.quiet ((recordPart_noticeGenState ..).trans (recordPart_modGen ..)))

theorem rescueLimitExpiry_keepsRecords (g : GenId) (s : State) : RecordsKept s (rescueLimitExpiry g s) := by
  refine .when ?_
  split
  · exact .quiet (recordPart_modGen ..)
  · exact (takeFault_keepsRecords ..).after (recordPart_endRescue ..)

/-! ### The segment timer and samples (R30, R31, R54) -/

theorem segmentExpiry_keepsRecords (h : HeadId) (s : State) : RecordsKept s (segmentExpiry h s) := by
  refine .when ?_
  split
  · exact .refl s
  · exact takeFault_keepsRecords ..
  · exact exitSegment_keepsRecords ..
  · exact (exitSegment_keepsRecords ..).after (recordPart_modHead h rfl)

theorem soakTests_keepsRecords (p : Params) (target tf : Nat) (h : HeadId) (s : State) :
    RecordsKept s (soakTests p target tf h s) := by
  have raised : (s.modHead h fun x => { x with rescueReq := true }).recordPart = s.recordPart :=
    recordPart_modHead h rfl
  exact .ite (.ite (.refl s) (.ite (.quiet ((recordPart_countDev ..).trans raised)) (.quiet raised)))
    (.when (.quiet (recordPart_dropRescue ..)))

/-- Steps 10 to 12 of R54. -/
theorem runSample_keepsRecords (m : TakenSample) (p : Params) (s : State) : RecordsKept s (runSample m p s) := by
  cases e : s.segment m.head with
  | none => rw [runSample, e]; exact .refl s
  | some seg =>
    let steered := s.modHead m.head fun x =>
      { x with hcu := x.hcu.steer p seg x.ctx.rampOrigin (s.since x.ctx.segStart) }
    have part : (if m.quality.usable then steered else s).recordPart = s.recordPart := by
      split
      · exact recordPart_modHead _ rfl
      · rfl
    simp only [runSample, e]
    refine .after ?_ part
    change RecordsKept _ (match ((if m.quality.usable then steered else s).head m.head).hcu.filtered with
      | none => (if m.quality.usable then steered else s)
      | some tf => _)
    generalize (if m.quality.usable then steered else s) = v
    split
    · exact .refl v
    split
    · exact soakTests_keepsRecords ..
    · exact .when (exitSegment_keepsRecords ..)

theorem processSample_keepsRecords (m : TakenSample) (p : Params) (s : State) :
    RecordsKept s (processSample m p s) := by
  unfold processSample
  exact .after (.ite (takeFault_keepsRecords ..) (.after
    (.when (.ite (takeFault_keepsRecords ..) (runSample_keepsRecords ..))) (recordPart_modHead _ rfl)))
    (recordPart_modHead _ rfl)

theorem acceptSample_keepsRecords (m : TakenSample) (s : State) : RecordsKept s (acceptSample m s) := by
  have keeps : (keepSample m s).recordPart = s.recordPart := recordPart_modHead _ rfl
  have kept : (if m.quality = .weak then (keepSample m s).countDev m.head .weak else keepSample m s).recordPart =
      s.recordPart := by
    split
    · exact (recordPart_countDev ..).trans keeps
    · exact keeps
  unfold acceptSample
  dsimp only
  generalize (if m.quality = .weak then (keepSample m s).countDev m.head .weak else keepSample m s) = t at kept ⊢
  refine .after (.when ?_) kept
  split
  · exact .refl _
  · exact processSample_keepsRecords ..

theorem takeSample_keepsRecords (p : List Byte) (s : State) : RecordsKept s (takeSample p s) := by
  unfold takeSample
  split
  · exact .quiet rfl
  unfold sequenceSample
  split
  · exact .quiet (recordPart_countDev ..)
  · exact .quiet (recordPart_countDev ..)
  · exact (acceptSample_keepsRecords ..).after (recordPart_countDev ..)
  · exact acceptSample_keepsRecords ..

/-! ### Interlocks (chapter 7) -/

theorem releaseEarly_keepsRecords (h : HeadId) (s : State) : RecordsKept s (releaseEarly h s) :=
  .quiet ((recordPart_countDev ..).trans (recordPart_modHead h rfl))

theorem interlockLoss_keepsRecords (released : Bool) (h : HeadId) (s : State) :
    RecordsKept s (interlockLoss released h s) := by
  unfold interlockLoss
  split
  · exact .ite (.ite (.refl s) (releaseEarly_keepsRecords ..)) (takeFault_keepsRecords ..)
  · exact takeFault_keepsRecords ..
  · exact takeFault_keepsRecords ..
  all_goals exact .refl s

theorem coolantLossHead_keepsRecords (s : State) (h : HeadId) : RecordsKept s (coolantLossHead s h) := by
  unfold coolantLossHead
  split
  · exact .ite (releaseEarly_keepsRecords ..) (takeFault_keepsRecords ..)
  · exact takeFault_keepsRecords ..
  · exact takeFault_keepsRecords ..
  all_goals exact .refl s

/-- The latch is none of the laws'. -/
theorem recordPart_latch (g : GroupId) (latch : Bool) (s : State) :
    (s.modGroup g fun x => { x with latch := latch }).recordPart = s.recordPart := by
  refine recordPart_eq_iff.2 ⟨fun _ => rfl, fun k => ?_⟩
  by_cases n : k = g
  · subst n; rw [State.group_modGroup_same]
  · rw [State.group_modGroup_other _ _ n]

theorem coolantLoss_keepsRecords (g : GroupId) (s : State) : RecordsKept s (coolantLoss g s) := by
  have latched := recordPart_latch g true s
  exact .trans (.ite (.quiet ((recordPart_notice ..).trans latched)) (.quiet latched))
    (.foldl coolantLossHead_keepsRecords ..)

theorem actOnLosses_keepsRecords (s0 : State) (lost : GroupId → Bool) (s : State) :
    RecordsKept s (actOnLosses s0 lost s) :=
  .trans (.foldl (fun _ _ => .when (coolantLoss_keepsRecords ..)) ..)
    (.foldl (fun _ _ => .when (interlockLoss_keepsRecords ..)) ..)

/-- New inputs at every head and group, each legal. -/
theorem RecordsKept.of_inputs (fr : ∀ h, (t.head h).fr = (s.head h).fr) (inputs : ∀ h, (t.head h).inputs.Legal)
    (flows : ∀ g, (t.group g).flow.Legal) : RecordsKept s t :=
  ⟨fun h l => by rw [fr]; exact l, fun h _ => inputs h, fun g _ => flows g⟩

end Sys2Proof.Machine
end

section
/-! PROOFS. Interlock frames, the frame timer and the slot keep the laws of fault records and inputs (R127-R129). -/

namespace Sys2Proof.Machine

variable {s t u : State} {g : GenId} {h : HeadId}

/-! ### New inputs (R127, R129) -/

theorem showFrame_head (m : InterlockFrame) (s : State) (h : HeadId) :
    (showFrame m s).head h = (s.head h).showInputs m h :=
  State.head_modAllHeads s (fun h x => x.showInputs m h) h

theorem showFrame_group (m : InterlockFrame) (s : State) (g : GroupId) :
    (showFrame m s).group g =
      { s.group g with flow := (s.group g).flow.show .activeOn (m.flow.getLsbD g.val) } := by
  simp [showFrame, State.group]

theorem dropAllInputs_head (s : State) (h : HeadId) :
    (dropAllInputs s).head h = { s.head h with inputs := (s.head h).inputs.drop } :=
  State.head_modAllHeads s (fun _ x => { x with inputs := x.inputs.drop }) h

theorem dropAllInputs_group (s : State) (g : GroupId) :
    (dropAllInputs s).group g = { s.group g with flow := (s.group g).flow.drop } := by
  simp [dropAllInputs, State.group]

/-- The frame timer is none of the laws'. -/
theorem recordPart_framed (s : State) (timer : Option Nat) (n : Nat) :
    ({ s with interlocks := { s.interlocks with frameTimer := timer, timeouts := n } } : State).recordPart =
      s.recordPart := rfl

theorem showFrame_keepsRecords (m : InterlockFrame) (s : State) : RecordsKept s (showFrame m s) :=
  .of_inputs (fun h => by rw [showFrame_head]; rfl)
    (fun h => by rw [showFrame_head]; exact ⟨Input.show_legal .., Input.show_legal .., Input.show_legal ..⟩)
    fun g => by rw [showFrame_group]; exact Input.show_legal ..

theorem dropAllInputs_keepsRecords (s : State) : RecordsKept s (dropAllInputs s) :=
  .of_inputs (fun h => by rw [dropAllInputs_head])
    (fun h => by rw [dropAllInputs_head]; exact HeadInputs.drop_legal _)
    fun g => by rw [dropAllInputs_group]; exact Input.drop_legal _

theorem takeInterlock_keepsRecords (p : List Byte) (s : State) : RecordsKept s (takeInterlock p s) := by
  unfold takeInterlock
  split
  · exact .refl s
  · exact ((showFrame_keepsRecords ..).trans (actOnLosses_keepsRecords ..)).after (recordPart_framed ..)

theorem interlockExpiry_keepsRecords (s : State) : RecordsKept s (interlockExpiry s) := by
  unfold interlockExpiry
  exact .when (((dropAllInputs_keepsRecords s).then (recordPart_framed ..)).trans (actOnLosses_keepsRecords ..))

/-! ### The slot and the tick (R1, R74) -/

theorem slotExpiry_keepsRecords (s : State) : RecordsKept s (slotExpiry s) := by
  have advanced : (slotRounds s).recordPart = s.recordPart :=
    recordPart_eq_iff.2 ⟨fun h => by rw [slotRounds_head],
      fun g => by rw [slotRounds_eq]; rfl⟩
  have kept := slotService_scheduled (slotRounds s)
  have served : (slotService (slotRounds s)).recordPart = (slotRounds s).recordPart :=
    recordPart_eq_iff.2 ⟨fun h => by rw [kept.heads]; rfl, fun g => by rw [State.group_of_interlocks kept.interlocks]⟩
  exact .when (.quiet (served.trans advanced))

theorem tick_keepsRecords (s : State) : RecordsKept s (tick s) :=
  .quiet (recordPart_eq_iff.2 ⟨fun h => by rw [tick_head]; rfl, fun _ => rfl⟩)

end Sys2Proof.Machine
end

section
/-! PROOFS. Every command, both resets and so every step keep the laws of fault records and inputs (R23, R137, R150,
R201). -/

namespace Sys2Proof.Machine

variable {s t u : State} {g : GenId} {h : HeadId}

/-- Carrying out a command keeps the laws. -/
def BodyKeepsRecords (body : State → Answer) : Prop := ∀ s, RecordsKept s (body s).after

/-- A refusal changes nothing, so a check before a command's effect plays no part. -/
theorem RecordsKept.unless {c : Prop} [Decidable c] {refusal a : Answer} (kept : RecordsKept s a.after)
    (unchanged : refusal.after = s := by rfl) : RecordsKept s (if c then refusal else a).after := by
  split
  · rw [unchanged]; exact .refl s
  · exact kept

theorem withHead_keepsRecords {f : HeadId → State → Answer} (b : Byte) (each : ∀ h, BodyKeepsRecords (f h)) :
    BodyKeepsRecords (withHead b f) := by
  intro s
  unfold withHead; split
  · exact each _ s
  · exact .refl s

theorem withGen_keepsRecords {f : GenId → State → Answer} (b : Byte) (each : ∀ g, BodyKeepsRecords (f g)) :
    BodyKeepsRecords (withGen b f) := by
  intro s
  unfold withGen; split
  · exact each _ s
  · exact .refl s

theorem withProfile_keepsRecords {f : ProfileId → State → Answer} (b : Byte) (each : ∀ p, BodyKeepsRecords (f p)) :
    BodyKeepsRecords (withProfile b f) := by
  intro s
  unfold withProfile; split
  · exact each _ s
  · exact .refl s

/-! ### Commands to heads -/

theorem startJoint_keepsRecords (h : HeadId) (p : ProfileId) (serial : Word32) (s : State) :
    RecordsKept s (startJoint h p serial s) := by
  unfold startJoint
  exact .after (enterJoint_keepsRecords ..) ((recordPart_dropRescue ..).trans (recordPart_modHead h rfl))

theorem resumeJoint_keepsRecords (h : HeadId) (q : SuspendRecord) (k : Nat) (cont : Bool) (s : State) :
    RecordsKept s (resumeJoint h q k cont s) := by
  unfold resumeJoint
  exact .after (enterJoint_keepsRecords ..) (recordPart_modHead h rfl)

theorem doStart_keepsRecords (hd prof : Byte) (serial : Word32) : BodyKeepsRecords (doStart hd prof serial) := by
  intro s
  unfold doStart
  refine .unless (withHead_keepsRecords hd (fun h t => .unless ?_) s)
  split
  · exact .refl t
  · exact .unless (.unless (startJoint_keepsRecords ..))

theorem doAbort_keepsRecords (hd : Byte) : BodyKeepsRecords (doAbort hd) :=
  withHead_keepsRecords hd fun h t => by
    split
    · exact .quiet (recordPart_finishJoint ..)
    · exact .refl t

theorem doSuspendHead_keepsRecords (hd : Byte) : BodyKeepsRecords (doSuspendHead hd) :=
  withHead_keepsRecords hd fun h t => by
    split
    · exact .quiet (recordPart_suspend ..)
    · exact .refl t

theorem doResumeHead_keepsRecords (hd k : Byte) (cont : Bool) : BodyKeepsRecords (doResumeHead hd k cont) :=
  withHead_keepsRecords hd fun h t => .unless (by
    split
    · exact .refl t
    · exact .unless (.unless (.unless (resumeJoint_keepsRecords ..))))

theorem doClearHead_keepsRecords (hd : Byte) : BodyKeepsRecords (doClearHead hd) :=
  withHead_keepsRecords hd fun h _ => .unless (.unless (.quiet (recordPart_modHead h rfl)))

theorem doDisableHead_keepsRecords (hd : Byte) : BodyKeepsRecords (doDisableHead hd) :=
  withHead_keepsRecords hd fun h _ => .unless (.quiet (recordPart_modHead h rfl))

theorem doEnableHead_keepsRecords (hd : Byte) : BodyKeepsRecords (doEnableHead hd) :=
  withHead_keepsRecords hd fun h _ => .unless (.quiet (recordPart_modHead h rfl))

/-- CLEAR FAULTS takes a set of kinds out of the record (R150). -/
theorem doClearFaults_keepsRecords (hd : Byte) (kinds : List Byte) : BodyKeepsRecords (doClearFaults hd kinds) :=
  withHead_keepsRecords hd fun h t => by
    split
    · exact .refl t
    · exact .modHead (f := fun x => { x with fr := x.fr.cleared _ }) h (·.cleared _) id

/-- A polarity change makes the head's inputs UNSATISFIED (R137). -/
theorem doWriteHeadConfig_keepsRecords (w : HeadConfigArg) : BodyKeepsRecords (doWriteHeadConfig w) :=
  withHead_keepsRecords w.head fun h t => by
    split
    · exact .refl t
    · refine .unless ?_
      dsimp only [accept_after]
      refine .modHead h id fun l => ?_
      unfold Head.configured
      dsimp only
      split
      · exact HeadInputs.drop_legal _
      · exact l

/-! ### The other commands -/

theorem doClearCoolantLatch_keepsRecords (b : Byte) : BodyKeepsRecords (doClearCoolantLatch b) := by
  intro s
  unfold doClearCoolantLatch
  split
  · exact .refl s
  · exact .unless (.quiet (recordPart_latch ..))

theorem doClearGenerator_keepsRecords (b : Byte) : BodyKeepsRecords (doClearGenerator b) :=
  withGen_keepsRecords b fun _ _ =>
    .unless (.unless (.quiet ((recordPart_noticeGenState ..).trans (recordPart_modGen ..))))

theorem recordPart_zeroCounters (s : State) : (zeroCounters s).recordPart = s.recordPart := by
  refine recordPart_eq_iff.2 ⟨fun h => ?_, fun g => by simp [zeroCounters, State.group]⟩
  have zeroed : (zeroCounters s).heads =
      (s.modAllHeads fun _ x => { x with deviations := Vector.replicate 11 0 }).heads := by simp [zeroCounters]
  rw [State.head_of_heads zeroed, State.head_modAllHeads]; rfl

theorem doClearCounters_keepsRecords : BodyKeepsRecords doClearCounters := fun s => .quiet (recordPart_zeroCounters s)

theorem doReadResults_keepsRecords (n : Byte) : BodyKeepsRecords (doReadResults n) := fun _ => .unless (.quiet rfl)

theorem doWritePhases_keepsRecords (b i : Byte) (es : List Byte) (n : Byte) :
    BodyKeepsRecords (doWritePhases b i es n) :=
  withGen_keepsRecords b fun _ t => by
    refine .unless ?_
    split
    · exact .refl t
    · exact .unless (.quiet (recordPart_modGen ..))

theorem doLoadPhases_keepsRecords (b : Byte) : BodyKeepsRecords (doLoadPhases b) :=
  withGen_keepsRecords b fun _ _ => .unless (.unless (.quiet (recordPart_modGen ..)))

theorem doWriteExclusions_keepsRecords (ps : List (Byte × Byte)) : BodyKeepsRecords (doWriteExclusions ps) := by
  intro s
  unfold doWriteExclusions
  split
  · exact .refl s
  · exact .unless (.quiet rfl)

theorem recordPart_reconfigure (old : PartConfig) (g : GenId) (s : State) :
    (reconfigure old g s).recordPart = s.recordPart := by
  unfold reconfigure
  dsimp only
  split
  · exact recordPart_modGen ..
  · exact (recordPart_noticeGenState ..).trans (recordPart_modGen ..)

theorem doWritePartConfig_keepsRecords (w : PartConfigArg) : BodyKeepsRecords (doWritePartConfig w) := by
  intro s
  unfold doWritePartConfig
  split
  · exact .unless (.unless (.quiet ((recordPart_reconfigure ..).trans (recordPart_reconfigure ..))))
  · exact .refl s

theorem doWriteFaultPolicy_keepsRecords (ps : List (Byte × Byte)) : BodyKeepsRecords (doWriteFaultPolicy ps) := by
  intro s
  unfold doWriteFaultPolicy
  split
  · exact .refl s
  · exact .quiet rfl

theorem doWriteProfile_keepsRecords (w : ProfileArg) : BodyKeepsRecords (doWriteProfile w) :=
  withProfile_keepsRecords w.profile fun p t => by
    split
    · exact .refl t
    · exact .unless (.unless (.unless (.quiet rfl)))

theorem doEraseProfile_keepsRecords (b : Byte) (e : Option Word16) : BodyKeepsRecords (doEraseProfile b e) :=
  withProfile_keepsRecords b fun _ _ => .unless (.unless (.unless (.quiet rfl)))

theorem doLockProfile_keepsRecords (b : Byte) : BodyKeepsRecords (doLockProfile b) :=
  withProfile_keepsRecords b fun _ _ => .quiet rfl

theorem doUnlockProfile_keepsRecords (b : Byte) : BodyKeepsRecords (doUnlockProfile b) :=
  withProfile_keepsRecords b fun _ _ => .unless (.quiet rfl)

/-- Every command's body keeps the laws. -/
theorem CommandBody.keepsRecords {body : State → Answer} (b : CommandBody body) : BodyKeepsRecords body := by
  intro s
  cases b with
  | readStatus page => rw [doReadStatus_after]; exact .refl s
  | readConfig => exact .refl s
  | readCounters page => rw [doReadCounters_after]; exact .refl s
  | readProfile p => rw [doReadProfile_after]; exact .refl s
  | readPhases g table => rw [doReadPhases_after]; exact .refl s
  | readHead h => rw [doReadHead_after]; exact .refl s
  | readFaults h => rw [doReadFaults_after]; exact .refl s
  | readResults n => exact doReadResults_keepsRecords n s
  | peekResults n => rw [doPeekResults_after]; exact .refl s
  | start h p serial => exact doStart_keepsRecords h p serial s
  | abort h => exact doAbort_keepsRecords h s
  | suspendHead h => exact doSuspendHead_keepsRecords h s
  | resumeHead h k cont => exact doResumeHead_keepsRecords h k cont s
  | clearHead h => exact doClearHead_keepsRecords h s
  | clearFaults h kinds => exact doClearFaults_keepsRecords h kinds s
  | clearCoolantLatch g => exact doClearCoolantLatch_keepsRecords g s
  | clearGenerator g => exact doClearGenerator_keepsRecords g s
  | ackColdStart => exact .quiet rfl
  | clearCounters => exact doClearCounters_keepsRecords s
  | writeProfile w => exact doWriteProfile_keepsRecords w s
  | eraseProfile p e => exact doEraseProfile_keepsRecords p e s
  | lockProfile p => exact doLockProfile_keepsRecords p s
  | unlockProfile p => exact doUnlockProfile_keepsRecords p s
  | writePhases g i es n => exact doWritePhases_keepsRecords g i es n s
  | loadPhases g => exact doLoadPhases_keepsRecords g s
  | writeHeadConfig w => exact doWriteHeadConfig_keepsRecords w s
  | writeExclusions ps => exact doWriteExclusions_keepsRecords ps s
  | writePartConfig w => exact doWritePartConfig_keepsRecords w s
  | writeFaultPolicy ps => exact doWriteFaultPolicy_keepsRecords ps s
  | disableHead h => exact doDisableHead_keepsRecords h s
  | enableHead h => exact doEnableHead_keepsRecords h s
  | resetPart => exact .quiet rfl

/-! ### Every step -/

/-- A reset empties every fault record and makes every input UNSATISFIED (R126, R201). -/
theorem RecordsKept.of_reset (records : ∀ h, (t.head h).records = Head.powerOn.records)
    (flows : ∀ g, (t.group g).flow = Input.reset) : RecordsKept s t := by
  have fr : ∀ h, (t.head h).fr = ⟨[], none, none⟩ := fun h => congrArg Prod.fst (records h)
  have inputs : ∀ h, (t.head h).inputs = Head.powerOn.inputs := fun h => congrArg Prod.snd (records h)
  exact ⟨fun h _ => by rw [fr]; exact FaultRecord.legal_empty,
    fun h _ => by rw [inputs]; exact ⟨Input.reset_legal, Input.reset_legal, Input.reset_legal⟩,
    fun g _ => by rw [flows]; exact Input.reset_legal⟩

theorem reset_flow (e : t.interlocks = State.reset.interlocks) (g : GroupId) : (t.group g).flow = Input.reset := by
  simp [State.group, e, State.reset]

/-- Every piece of work keeps the laws. -/
theorem Work.keepsRecords {w : State → State} (h : Work w) (s : State) : RecordsKept s (w s) := by
  cases h with
  | idle => exact .refl s
  | powerOn straps low => exact .of_reset (fun h => by rw [powerOn_head]) (reset_flow rfl)
  | release underWay => exact .when (.quiet rfl)
  | softReset => exact .of_reset (fun h => by rw [softReset_head]; rfl) (reset_flow rfl)
  | tick => exact tick_keepsRecords s
  | slot => exact slotExpiry_keepsRecords s
  | segmentTimer h => exact segmentExpiry_keepsRecords h s
  | sampleTimer h => exact .when (takeFault_keepsRecords ..)
  | windowTimer h => exact .when (takeFault_keepsRecords ..)
  | rescueLimit g => exact rescueLimitExpiry_keepsRecords g s
  | wakeTimer g => exact .when (faultGenerator_keepsRecords ..)
  | statusTimer g => exact .when (faultGenerator_keepsRecords ..)
  | idleTimer g => exact idleExpiry_keepsRecords g s
  | frameTimer => exact interlockExpiry_keepsRecords s
  | sample payload => exact takeSample_keepsRecords payload s
  | genstat payload => exact takeGenstat_keepsRecords payload s
  | interlock payload => exact takeInterlock_keepsRecords payload s
  | command b => exact b.keepsRecords s

/-- Every step keeps the laws: its work does, and its plumbing lies before the port. -/
theorem step_keepsRecords (e : step s = .next t) : RecordsKept s t := by
  obtain ⟨w, u, hw, before, after⟩ := step_worksTo e
  exact ((hw.keepsRecords u).then (recordPart_of_inner after)).after (recordPart_of_inner before)

end Sys2Proof.Machine

namespace Sys2Proof.Proofs
open Sys2Proof.Machine

/-- Settles O58: every piece of work a step does behind the port keeps each head's record and inputs and each group's
coolant input legal, each from its own. -/
theorem stepKeepsFaultsAndInputs : Obligations.StepKeepsFaultsAndInputs := by
  intro s t faults ⟨inputs, flows⟩ e
  have kept := step_keepsRecords e
  exact ⟨fun h => kept.faults h (faults h), fun h => kept.inputs h (inputs h), fun g => kept.flows g (flows g)⟩

end Sys2Proof.Proofs
end

section
/-! PROOFS. The heads' turns at a coolant loss and at an interlock loss (R132, R134). -/

namespace Sys2Proof.Machine

variable {s t u v : State} {g : GroupId} {h : HeadId}

/-- A COOL is released early by one change of its head: the flag and the count (R132, R134). -/
theorem releaseEarly_eq (h : HeadId) (s : State) : releaseEarly h s = s.modHead h fun x =>
    { x with ctx := { x.ctx with earlyRelease := true },
             deviations := x.deviations.set 8 (min (x.deviations[8] + 1) 65535) } := by
  rw [releaseEarly, State.countDev, State.modCtx, State.modHead_modHead]; rfl

/-- The states without a joint. -/
theorem free_cases (free : s.holds h = false) : (s.head h).ctx.state = .idle
    ∨ (s.head h).ctx.state = .faulted ∨ (s.head h).ctx.state = .disabled := by
  unfold State.holds at free
  generalize (s.head h).ctx.state = st at free ⊢
  cases st <;> simp [HeadState.holdsJoint] at free ⊢

/-- COOLANT_LOST is only recorded against a SUSPENDED head (R134, R145). -/
theorem takeFault_noted_of_suspended (suspended : (s.head h).ctx.state = .suspended) :
    FaultNoted h .coolantLost s (takeFault h .coolantLost s) := by
  have action : s.faultAction h .coolantLost = .recorded := by
    rw [State.faultAction, if_pos suspended, if_pos rfl]
  have taken : takeFault h .coolantLost s =
      s.noted h (s.recordAfter h .coolantLost .recorded) (s.faultNoticed h .coolantLost .recorded) := by
    rw [takeFault_noted (by rw [State.holds, suspended]; rfl), action]; rfl
  have own : ((takeFault h .coolantLost s).head h) =
      { s.head h with fr := s.recordAfter h .coolantLost .recorded } := by
    rw [taken]; exact State.noted_head_same ..
  have fr : ((takeFault h .coolantLost s).head h).fr = s.recordAfter h .coolantLost .recorded := by rw [own]
  refine ⟨recordAfter_recorded fr, by rw [fr]; exact own, ?_, ?_⟩ <;> rw [taken]
  · exact noted_others ..
  · exact ⟨rfl, rfl, rfl⟩

/-- A head's turn at a coolant loss of its group (R134). -/
theorem coolantLossHead_turn (s : State) (h : HeadId) : LossTurn h .coolantLost False s (coolantLossHead s h) := by
  refine ⟨fun live => ?_, fun running cool => ⟨False.elim, fun _ => ?_⟩, fun suspended => ⟨nofun, fun _ => ?_⟩,
    fun free => ?_⟩ <;> unfold coolantLossHead
  · rcases live with ⟨running, heats⟩ | waits
    · rw [running]; dsimp only; rw [heats]; exact takeFault_acts (.inl running) _
    · rw [waits]; exact takeFault_acts (.inr waits) _
  · rw [running]; dsimp only; rw [if_pos cool]; exact releaseEarly_eq h s
  · rw [suspended]; exact takeFault_noted_of_suspended suspended
  · rcases free_cases free with e | e | e <;> rw [e]

/-- A head's turn at its interlock loss (R132). -/
theorem interlockLoss_turn {released : Bool} {r : Prop} (is : released = true ↔ r) (h : HeadId) (s : State) :
    LossTurn h .interlockLost r s (interlockLoss released h s) := by
  refine ⟨fun live => ?_, fun running cool => ⟨fun early => ?_, fun late => ?_⟩,
    fun suspended => ⟨fun _ => ?_, nofun⟩, fun free => ?_⟩ <;> unfold interlockLoss
  · rcases live with ⟨running, heats⟩ | waits
    · rw [running]; dsimp only; rw [heats]; exact takeFault_acts (.inl running) _
    · rw [waits]; exact takeFault_acts (.inr waits) _
  · rw [running]; dsimp only; rw [if_pos cool, if_pos (is.2 early)]
  · rw [running]; dsimp only; rw [if_pos cool, if_neg (mt is.1 late)]; exact releaseEarly_eq h s
  · rw [suspended]
    exact (takeFault_acts_of_fixed (k := .interlockLost) (by rw [State.holds, suspended]; rfl) rfl nofun).2
  · rcases free_cases free with e | e | e <;> rw [e]

/-- A head's turn at a loss leaves the Interlock Monitor. -/
theorem LossTurn.monitor {k : FaultKind} {r : Prop} (loss : k = .coolantLost ∨ k = .interlockLost)
    (turn : LossTurn h k r s t) : t.interlocks = s.interlocks := by
  cases st : (s.head h).ctx.state
  case running =>
    cases cool : s.inCool h
    · exact (turn.heating (.inl ⟨st, cool⟩)).others.interlocks
    · by_cases early : r
      · rw [(turn.cooling st cool).1 early]
      · rw [(turn.cooling st cool).2 early]; rfl
  case waitGen => exact (turn.heating (.inr st)).others.interlocks
  case suspended =>
    rcases loss with e | e
    · exact ((turn.suspended st).2 e).others.interlocks
    · exact ((turn.suspended st).1 e).others.interlocks
  all_goals rw [turn.kept (by rw [State.holds, st]; rfl)]

end Sys2Proof.Machine
end

section
/-! PROOFS. The losses of one event of the Interlock Monitor, in their order, and the groups' latches (R127, R129,
R133). -/

namespace Sys2Proof.Machine

variable {s t u v : State} {g : GroupId} {h : HeadId}

/-! ### What the losses leave of the Interlock Monitor and of the inputs -/

/-- From `s` to `t` every input stays, and so does the Interlock Monitor beside the latches, which are set in the
groups that `p` says. -/
structure Latched (p : GroupId → Bool) (s t : State) : Prop where
  inputs : ∀ h, (t.head h).inputs = (s.head h).inputs
  groups : ∀ g, t.group g = { s.group g with latch := (s.group g).latch || p g }
  timer : t.interlocks.frameTimer = s.interlocks.frameTimer
  timeouts : t.interlocks.timeouts = s.interlocks.timeouts

theorem Latched.trans {p q r : GroupId → Bool} (a : Latched p s t) (b : Latched q t u)
    (both : ∀ g, r g = (p g || q g)) : Latched r s u where
  inputs h := (b.inputs h).trans (a.inputs h)
  groups g := by rw [b.groups, a.groups, both, Bool.or_assoc]
  timer := b.timer.trans a.timer
  timeouts := b.timeouts.trans a.timeouts

/-- Where no group loses its coolant, the Interlock Monitor stays. -/
theorem Latched.none (inputs : ∀ h, (t.head h).inputs = (s.head h).inputs) (monitor : t.interlocks = s.interlocks) :
    Latched (fun _ => false) s t :=
  ⟨inputs, fun g => by rw [State.group_of_interlocks monitor, Bool.or_false], by rw [monitor], by rw [monitor]⟩

theorem Latched.refl (s : State) : Latched (fun _ => false) s s := .none (fun _ => rfl) rfl

/-- A run of events, each of which sets the latches its `p` says. -/
theorem Latched.foldl {α : Type} {p : α → GroupId → Bool} {f : State → α → State}
    (each : ∀ s a, Latched (p a) s (f s a)) (l : List α) (s : State) :
    Latched (fun g => l.any (p · g)) s (l.foldl f s) := by
  induction l generalizing s with
  | nil => exact .refl s
  | cons a l ih => exact (each s a).trans (ih _) fun _ => rfl

theorem LossTurn.latched {k : FaultKind} {r : Prop} (loss : k = .coolantLost ∨ k = .interlockLost)
    (turn : LossTurn h k r s t) : Latched (fun _ => false) s t := by
  refine .none (fun j => ?_) (turn.monitor loss)
  by_cases own : j = h
  · subst own; exact turn.inputs loss
  · rw [(turn.follows loss).heads j own]

/-! ### A group's coolant loss (R133) -/

/-- A group at its coolant loss, before its heads' turns: the latch, and the notice where the latch was clear
(R133). -/
def State.coolantLatched (s : State) (g : GroupId) : State :=
  { s.modGroup g (fun x => { x with latch := true }) with
      rp := if (s.group g).latch = true then s.rp
        else s.offered s.rp [5, byte g.val, rawCode (s.group g).flow.raw, s.slots.number] }

theorem coolantLatched_latched (s : State) (g : GroupId) :
    Latched (fun k => decide (k = g)) s (s.coolantLatched g) := by
  have group : ∀ k, (s.coolantLatched g).group k = (s.modGroup g fun x => { x with latch := true }).group k :=
    State.group_of_interlocks rfl
  refine ⟨fun _ => rfl, fun k => ?_, rfl, rfl⟩
  rw [group]
  by_cases own : k = g
  · subst own; rw [State.group_modGroup_same, decide_eq_true rfl, Bool.or_true]
  · rw [State.group_modGroup_other _ _ own, decide_eq_false own, Bool.or_false]

theorem coolantLoss_eq (g : GroupId) (s : State) :
    coolantLoss g s = (headsOfGroup g).foldl coolantLossHead (s.coolantLatched g) := by
  refine congrArg (List.foldl coolantLossHead · (headsOfGroup g)) ?_
  cases latch : (s.group g).latch <;> simp only [State.coolantLatched, latch]
  · refine (State.notice_eq ..).trans ?_
    rw [State.group_modGroup_same]; rfl
  · rfl

theorem coolantLoss_latched (g : GroupId) (s : State) : Latched (fun k => decide (k = g)) s (coolantLoss g s) := by
  rw [coolantLoss_eq]
  exact (coolantLatched_latched s g).trans
    (Latched.foldl (fun s h => (coolantLossHead_turn s h).latched (.inl rfl)) _ _) fun _ => by simp

/-- A run, each step of which is its own turn from wherever the invariant holds. -/
theorem Turns.of_foldl_keeping {α : Type} {turn : α → State → State → Prop} {f : State → α → State}
    {P : State → Prop} (each : ∀ s a, P s → turn a s (f s a) ∧ P (f s a)) (l : List α) (start : P s) :
    Turns turn l s (l.foldl f s) := by
  induction l generalizing s with
  | nil => rfl
  | cons a l ih => exact Turns.cons_iff.2 ⟨f s a, (each s a start).1, ih (each s a start).2⟩

/-- The coolant loss of a group, as the statements say it (R133, R134). -/
theorem coolantLoss_lost (g : GroupId) (s : State) : CoolantLost g s (coolantLoss g s) := by
  have heads : headsOfGroup g = allHeads.filter fun h => h.val / 4 = g.val :=
    List.filter_congr fun h _ => by simp only [groupOf, Fin.ext_iff]
  rw [coolantLoss_eq, heads]
  exact Turns.of_foldl_keeping (P := fun _ => True) (fun s h _ => ⟨coolantLossHead_turn s h, trivial⟩) _ trivial

/-! ### All losses of one event (R127, R129, R132, R133) -/

/-- The coolant losses of an event that began at `s` and takes the coolant of the groups `dry` for unsatisfied
(R133). -/
def State.coolantLosses (s : State) (dry : GroupId → Bool) (g : GroupId) : Bool := dry g && (s.group g).losesCoolant

theorem coolantLosses_iff (s : State) (dry : GroupId → Bool) (g : GroupId) : s.coolantLosses dry g = true ↔
    dry g = true ∧ ((s.group g).flow.satisfied = true ∨ (s.group g).latch = false) := by
  simp only [State.coolantLosses, Group.losesCoolant, Bool.and_eq_true, Bool.or_eq_true, Bool.not_eq_true']

/-- A group's turn in an event with the coolant losses `lost`. -/
def coolantTurn (lost : GroupId → Bool) (a : State) (g : GroupId) : State := if lost g then coolantLoss g a else a

/-- A head's turn after them in an event that began at `s`. -/
def State.interlockTurn (s : State) (lost : GroupId → Bool) (a : State) (h : HeadId) : State :=
  if s.verdict h && !a.verdict h then interlockLoss (lost (groupOf h)) h a else a

theorem actOnLosses_eq (s : State) (dry : GroupId → Bool) (v : State) : actOnLosses s dry v =
    allHeads.foldl (s.interlockTurn (s.coolantLosses dry)) (allGroups.foldl (coolantTurn (s.coolantLosses dry)) v) :=
  rfl

theorem coolantTurn_latched (lost : GroupId → Bool) (a : State) (g : GroupId) :
    Latched (fun k => lost g && decide (k = g)) a (coolantTurn lost a g) := by
  unfold coolantTurn
  cases lost g
  · exact .refl a
  · exact coolantLoss_latched g a

theorem interlockTurn_latched (s : State) (lost : GroupId → Bool) (a : State) (h : HeadId) :
    Latched (fun _ => false) a (s.interlockTurn lost a h) := by
  unfold State.interlockTurn
  split
  · exact (interlockLoss_turn Iff.rfl h a).latched (.inr rfl)
  · exact .refl a

theorem coolantTurns_latched (lost : GroupId → Bool) (v : State) :
    Latched lost v (allGroups.foldl (coolantTurn lost) v) := by
  refine (Latched.foldl (coolantTurn_latched lost) allGroups v).trans (.refl _) fun g => ?_
  have all : g ∈ allGroups := by revert g; decide
  rw [Bool.or_false, Bool.eq_iff_iff, List.any_eq_true]
  simp only [Bool.and_eq_true, decide_eq_true_eq]
  exact ⟨fun is => ⟨g, all, is, rfl⟩, fun ⟨k, _, is, same⟩ => same ▸ is⟩

/-- An event's losses leave the inputs, and set the latches of its coolant losses. -/
theorem actOnLosses_latched (s : State) (dry : GroupId → Bool) (v : State) :
    Latched (s.coolantLosses dry) v (actOnLosses s dry v) := by
  rw [actOnLosses_eq]
  exact (coolantTurns_latched ..).trans (Latched.foldl (interlockTurn_latched s _) ..) fun g => by simp

/-- An event acts on its losses in their order: each group's turn, and then the turn of each head that was in order
before the event and is not after its inputs (R127 steps 5 and 6, R129 steps 4 and 5). -/
theorem actOnLosses_actedOn (s : State) (dry : GroupId → Bool) (v : State) :
    LossesActedOn (fun g => dry g = true ∧ ((s.group g).flow.satisfied = true ∨ (s.group g).latch = false))
      (fun h => s.verdict h = true ∧ v.verdict h = false) v (actOnLosses s dry v) := by
  have is := coolantLosses_iff s dry
  rw [actOnLosses_eq]
  refine ⟨_, Turns.of_foldl_keeping (P := fun _ => True) (fun a g _ => ⟨⟨fun lost => ?_, fun kept => ?_⟩, trivial⟩)
    allGroups trivial, Turns.of_foldl_keeping (P := fun a => ∀ h, (a.head h).inputs = (v.head h).inputs)
    (fun a h same => ⟨⟨fun lost => ?_, fun kept => ?_⟩,
      fun j => ((interlockTurn_latched s _ a h).inputs j).trans (same j)⟩) allHeads
    (coolantTurns_latched ..).inputs⟩
  · rw [coolantTurn, if_pos ((is g).2 lost)]; exact coolantLoss_lost g a
  · exact if_neg (mt (is g).1 kept)
  all_goals have verdict : a.verdict h = v.verdict h := congrArg HeadInputs.verdict (same h)
  · obtain ⟨before, after⟩ := lost
    rw [State.interlockTurn, verdict, before, after]
    exact interlockLoss_turn (is _) h a
  · refine if_neg fun both => kept ?_
    rwa [verdict, Bool.and_eq_true, Bool.not_eq_true'] at both

end Sys2Proof.Machine
end

section
/-! PROOFS. INTERLOCK frames, the frame timer and CLEAR COOLANT LATCH, as the statements say them (R127-R129, R136). -/

namespace Sys2Proof.Machine

variable {s v : State}

/-- An INTERLOCK payload reads back as its fields (R178). -/
theorem readInterlock_bytes (part clamp coil : Word16) (flow : Byte) :
    readInterlock (enc16 part ++ enc16 clamp ++ enc16 coil ++ [flow]) = some ⟨part, clamp, coil, flow⟩ := by
  refine congrArg some ?_
  rw [ofLe16_le16, ofLe16_le16, ofLe16_le16]

/-! ### The part with new inputs -/

/-- The part after an INTERLOCK frame's inputs, before its losses (R127 steps 1 to 4). -/
def State.shown (s : State) (e : Bool) (m : InterlockFrame) : State :=
  showFrame m { s with
    engEn := e, interlocks := { s.interlocks with frameTimer := some s.mu.config.interlockTimeout } }

/-- The part after the frame timer's expiry, before its losses (R129 steps 1 to 3). -/
def State.timedOut (s : State) : State :=
  { dropAllInputs s with
      interlocks := { (dropAllInputs s).interlocks with
        frameTimer := none, timeouts := count16 (dropAllInputs s).interlocks.timeouts } }

theorem shown_head (s : State) (e : Bool) (m : InterlockFrame) (h : HeadId) :
    (s.shown e m).head h = (s.head h).showInputs m h := showFrame_head ..

theorem shown_group (s : State) (e : Bool) (m : InterlockFrame) (g : GroupId) : (s.shown e m).group g =
    { s.group g with flow := (s.group g).flow.show .activeOn (m.flow.getLsbD g.val) } := showFrame_group ..

theorem timedOut_head (s : State) (h : HeadId) :
    s.timedOut.head h = { s.head h with inputs := (s.head h).inputs.drop } := by
  rw [State.head_of_heads (s := dropAllInputs s) (by rw [State.timedOut]), dropAllInputs_head]

theorem timedOut_group (s : State) (g : GroupId) :
    s.timedOut.group g = { s.group g with flow := (s.group g).flow.drop } := by
  rw [← dropAllInputs_group]; simp only [State.timedOut, State.group]

/-- The expiry changes the heads and the Interlock Monitor alone. -/
theorem timedOut_eq (s : State) :
    s.timedOut = { s with heads := s.timedOut.heads, interlocks := s.timedOut.interlocks } := by
  simp only [State.timedOut, dropAllInputs, State.modAllHeads]

theorem timedOut_timer (s : State) : s.timedOut.interlocks.frameTimer = none := by rw [State.timedOut]

theorem timedOut_timeouts (s : State) : s.timedOut.interlocks.timeouts = min (s.interlocks.timeouts + 1) 65535 := by
  simp only [State.timedOut, dropAllInputs, State.modAllHeads, count16]

/-- From `s` to `v` the inputs alone are new, beside the frame timer and its count. -/
structure InputsRenewed (s v : State) : Prop where
  heads : ∀ h, v.head h = { s.head h with inputs := (v.head h).inputs }
  latches : ∀ g, (v.group g).latch = (s.group g).latch
  profiles : v.profiles = s.profiles
  mu : v.mu = s.mu
  slots : v.slots = s.slots
  timebase : v.timebase = s.timebase

theorem shown_renewed (s : State) (e : Bool) (m : InterlockFrame) : InputsRenewed s (s.shown e m) :=
  ⟨fun h => by rw [shown_head]; rfl, fun g => by rw [shown_group], rfl, rfl, rfl, rfl⟩

theorem timedOut_renewed (s : State) : InputsRenewed s s.timedOut :=
  ⟨fun h => by rw [timedOut_head], fun g => by rw [timedOut_group], by rw [timedOut_eq],
    by rw [timedOut_eq], by rw [timedOut_eq], by rw [timedOut_eq]⟩

/-! ### The two events -/

/-- An INTERLOCK frame to the part is handed to the Interlock Monitor (R127, R181). -/
theorem exec_interlockFrame {e : Bool} {src : Byte} (up : s.rstHeld = false) (fresh : s.rp.skipFrame = false)
    (low : s.rp.station ≠ 0) (high : s.rp.station ≠ 63) (foreign : src ≠ s.ownStation)
    (accepted : s.mu.config.ioStation = 0 ∨ s.mu.config.ioStation = src.toNat) (part clamp coil : Word16)
    (flow : Byte) :
    exec (.frameArrival (mkFrame s.ownStation src 3 (enc16 part ++ enc16 clamp ++ enc16 coil ++ [flow])) e) s =
      .next (actOnLosses s (fun g => !flow.getLsbD g.val) (s.shown e ⟨part, clamp, coil, flow⟩)) := by
  have fits : (enc16 part ++ enc16 clamp ++ enc16 coil ++ [flow]).length ≤ 248 := show 7 ≤ 248 by decide
  refine (exec_frameArrival up fresh _ e).trans (congrArg Host.Outcome.next ?_)
  refine (arriveFrame_mkFrame (s := { s with engEn := e }) low high foreign fits rfl).trans ?_
  refine (if_neg (show (3 : Byte) ≠ 1 by decide)).trans ((if_neg (show (3 : Byte) ≠ 2 by decide)).trans
    ((if_pos rfl).trans ((if_pos (sourceOk_of accepted)).trans ?_)))
  rw [takeInterlock, readInterlock_bytes]
  rfl

/-- The frame timer's expiry (R129). -/
theorem exec_interlockFrameTimerExpiry (up : s.rstHeld = false) (timer : s.interlocks.frameTimer = some 0) :
    exec .interlockFrameTimerExpiry s = .next (actOnLosses s (fun _ => true) s.timedOut) :=
  (live_of_running interlockExpiry up).trans (congrArg Host.Outcome.next (if_pos (by rw [timer]; rfl)))

/-- Where an event sets the latch of every group that loses its coolant, the latch is set in every group it takes
for dry. -/
theorem latch_or_coolantLosses (s : State) (dry : GroupId → Bool) (g : GroupId) :
    ((s.group g).latch || s.coolantLosses dry g) = ((s.group g).latch || dry g) := by
  unfold State.coolantLosses Group.losesCoolant
  cases (s.group g).latch <;> simp

/-- What an event's losses leave of the rest of the part. -/
theorem actOnLosses_rest (dry : GroupId → Bool) (renewed : InputsRenewed s v) :
    (actOnLosses s dry v).profiles = s.profiles ∧ (actOnLosses s dry v).mu = s.mu
      ∧ (actOnLosses s dry v).slots = s.slots ∧ (actOnLosses s dry v).timebase = s.timebase := by
  have kept := fixedPart_actOnLosses v s dry
  simp only [State.fixedPart, Prod.mk.injEq] at kept
  obtain ⟨mu, profiles, slots, timebase, -⟩ := kept
  exact ⟨profiles.trans renewed.profiles, mu.trans renewed.mu, slots.trans renewed.slots,
    timebase.trans renewed.timebase⟩

end Sys2Proof.Machine

namespace Sys2Proof.Proofs
open Sys2Proof.Machine

/-- Settles O39: the branches of CLEAR COOLANT LATCH in the order of R136. -/
theorem clearCoolantLatchNeedsFlow : Obligations.ClearCoolantLatchNeedsFlow := by
  intro s r takes
  refine ⟨fun b out => operatorRow_refuses takes ?_, fun g dry => operatorRow_refuses takes ?_,
    fun g flows => operatorRow_does takes ?_⟩
  · rw [doClearCoolantLatch, groupOfByte_none out]
  all_goals rw [doClearCoolantLatch, groupOfByte_byte]; dsimp only
  · exact if_pos (by rw [Bool.not_eq_true']; exact dry)
  · have satisfied : (State.group { s with engEn := r.engEn } g).flow.satisfied = true := flows
    rw [State.group_modGroup_same, satisfied, if_neg (by decide)]
    rfl

/-- Settles O43: the frame and the frame timer each give the part its new inputs and then act on the losses, whose
turns in their order are `actOnLosses_actedOn`. -/
theorem interlocksDebounceAndLatch : Obligations.InterlocksDebounceAndLatch := by
  unfold Obligations.InterlocksDebounceAndLatch
  intro judged asked acts
  have judges : ∀ (i : Input) (raw ok : Bool), judged i raw ok = Input.judge { i with raw := some raw } ok := by
    rintro ⟨before, satisfied, mark⟩ raw ok
    cases satisfied <;> cases mark <;> cases ok <;> rfl
  have asks : ∀ p raw, asked p raw = polarityJudges p raw := fun p raw => by cases p <;> rfl
  have whole : ∀ (s v : State) (dry : GroupId → Bool), InputsRenewed s v → acts s v (actOnLosses s dry v) dry := by
    intro s v dry renewed
    have acted := actOnLosses_actedOn s dry v
    have latched := actOnLosses_latched s dry v
    refine ⟨acted, acted.lossActs renewed.heads renewed.profiles, fun g => ?_, latched.timer, latched.timeouts,
      actOnLosses_rest dry renewed⟩
    rw [latched.groups, renewed.latches, latch_or_coolantLosses]
  refine ⟨fun s e src part clamp coil flow up fresh low high foreign accepted => ?_, fun s up timer => ?_⟩
  · refine ⟨s.shown e ⟨part, clamp, coil, flow⟩, _,
      exec_interlockFrame up fresh low high foreign accepted part clamp coil flow, rfl, rfl, rfl,
      fun h => ?_, fun g => ?_, ?_⟩
    · rw [shown_head]; simp only [judges, asks]; rfl
    · rw [shown_group, judges]; rfl
    · exact whole s (s.shown e ⟨part, clamp, coil, flow⟩) (fun g => !flow.getLsbD g.val) (shown_renewed ..)
  · refine ⟨s.timedOut, _, exec_interlockFrameTimerExpiry up timer, timedOut_eq s, timedOut_timer s,
      timedOut_timeouts s, timedOut_head s, timedOut_group s, ?_⟩
    exact whole s s.timedOut (fun _ => true) (timedOut_renewed s)

end Sys2Proof.Proofs
end

section
/-! PROOFS. CLEAR FAULTS (R150) and WRITE FAULT POLICY (R141). -/

namespace Sys2Proof.Machine

/-! ### CLEAR FAULTS (R150) -/

theorem kindOf_none {b : Byte} (out : 9 ≤ b.toNat) : kindOf b = none :=
  List.getElem?_eq_none (l := FaultKind.all) out

/-- An empty set, or one with a byte that is no kind, names no kinds. -/
theorem clearSet_none {bs : List Byte} (bad : bs = [] ∨ ∃ c ∈ bs, 9 ≤ c.toNat) : clearSet bs = none := by
  unfold clearSet
  split
  · rfl
  next given =>
  obtain ⟨c, mem, out⟩ := bad.resolve_left given
  exact mapM_eq_none_of_mem mem (kindOf_none out)

/-- The codes of some kinds name those kinds. -/
theorem clearSet_codes {ks : List FaultKind} (nonempty : ks ≠ []) :
    clearSet (ks.map fun k => byte k.idx.val) = some ks := by
  rw [clearSet, if_neg (mt List.map_eq_nil_iff.1 nonempty), mapM_map_eq_some fun k _ => kindOf_byte k]

/-- A command to a head is refused where it is refused of every head. -/
theorem withHead_refuses (b : Byte) {f : HeadId → State → Answer} {u : State}
    (refuses : ∀ h, f h u = refuse .badArgument u) : withHead b f u = refuse .badArgument u := by
  unfold withHead
  split
  next h _ => exact refuses h
  · rfl

/-- CLEAR FAULTS on the codes of some kinds clears them from the head's fault record. -/
theorem doClearFaults_codes (h : HeadId) {ks : List FaultKind} (nonempty : ks ≠ []) (u : State) :
    doClearFaults (byte h.val) (ks.map fun k => byte k.idx.val) u =
      accept (statusBytes ((u.head h).fr.cleared ks).status ++ pointerBytes ((u.head h).fr.cleared ks).pointer)
        (u.modHead h fun x => { x with fr := x.fr.cleared ks }) := by
  rw [doClearFaults, withHead_byte, clearSet_codes nonempty]
  dsimp only
  rw [State.head_modHead_same]

/-! ### One entry of a policy (R140, R141) -/

theorem severityOf_none {b : Byte} (out : 2 ≤ b.toNat) : severityOf b = none := by
  rw [severityOf, if_neg, if_neg] <;> rintro rfl <;> simp at out

/-- An entry whose severity byte is no code is refused. -/
theorem policyEntry_of_no_severity (k : FaultKind) {p : Byte × Byte} (out : 2 ≤ p.2.toNat) :
    policyEntry k p = none := by
  unfold policyEntry
  split
  next read => rw [severityOf_none out] at read; cases read
  · rfl

/-- An entry that gives SUSPEND to a kind of fixed severity is refused. -/
theorem policyEntry_of_fixed_suspend {k : FaultKind} {p : Byte × Byte} (fixed : k.fixedAbort = true)
    (suspends : p.2 = 0) : policyEntry k p = none := by
  unfold policyEntry
  split
  next sev _ read =>
    have suspend : sev = .suspend := by rw [suspends] at read; exact (Option.some.inj read).symm
    exact if_pos ⟨fixed, suspend⟩
  · rfl

/-- The entry of a kind that is masked or not, and whose faults abort or suspend. -/
def entryFor (masked aborts : Bool) : PolicyEntry := ⟨masked, if aborts then .abort else .suspend⟩

/-- The codes of an entry are read as that entry, where a kind of fixed severity aborts. -/
theorem policyEntry_codes {k : FaultKind} (masked : Bool) {aborts : Bool}
    (fixed : k.fixedAbort = true → aborts = true) :
    policyEntry k (flagByte (!masked), flagByte aborts) = some (entryFor masked aborts) := by
  have mask : openByte .policyMask (flagByte (!masked)) = some (!masked) := by cases masked <;> rfl
  have severity : severityOf (flagByte aborts) = some (entryFor masked aborts).severity := by cases aborts <;> rfl
  have allowed : ¬ (k.fixedAbort = true ∧ (entryFor masked aborts).severity = .suspend) := by
    rintro ⟨isFixed, suspends⟩
    obtain rfl := fixed isFixed
    cases suspends
  rw [policyEntry, mask, severity]
  dsimp only
  rw [if_neg allowed, Bool.not_not]
  rfl

/-- An entry is answered by the codes it was given by. -/
theorem entryFor_bytes (masked aborts : Bool) :
    [maskCode (entryFor masked aborts).masked, (entryFor masked aborts).severity.code]
      = [flagByte (!masked), flagByte aborts] := by
  cases masked <;> cases aborts <;> rfl

/-! ### The policy whole (R141) -/

/-- A policy with an entry that its kind refuses is refused. -/
theorem policyOf_of_refused {es : List (Byte × Byte)} (i : Nat) {k : FaultKind} {p : Byte × Byte}
    (kind : FaultKind.all[i]? = some k) (entry : es[i]? = some p) (refused : policyEntry k p = none) :
    policyOf es = none := by
  have mem : (k, p) ∈ FaultKind.all.zip es :=
    List.mem_of_getElem? (List.getElem?_zip_eq_some.2 ⟨kind, entry⟩)
  unfold policyOf
  split
  · rw [mapM_eq_none_of_mem mem refused]
  · rfl

/-- A kind stands at its place in the order of R139. -/
theorem all_getElem?_idx (k : FaultKind) : FaultKind.all[k.idx.val]? = some k := by cases k <;> rfl

/-- Each of R141's faults of a policy refuses it. -/
theorem policyOf_none {es : List (Byte × Byte)} (bad : es.length ≠ 9 ∨ (∃ p ∈ es, 2 ≤ p.2.toNat)
    ∨ ∃ k : FaultKind, k.fixedAbort = true ∧ (es[k.idx.val]?).map Prod.snd = some 0) : policyOf es = none := by
  by_cases nine : es.length = 9
  · rcases bad.resolve_left (not_not.2 nine) with ⟨p, mem, out⟩ | ⟨k, fixed, suspends⟩
    · obtain ⟨i, entry⟩ := List.mem_iff_getElem?.1 mem
      have inside : i < 9 := nine ▸ (List.getElem?_eq_some_iff.1 entry).1
      have kind := List.getElem?_eq_getElem (l := FaultKind.all) inside
      exact policyOf_of_refused i kind entry (policyEntry_of_no_severity _ out)
    · obtain ⟨p, entry, zero⟩ := Option.map_eq_some_iff.1 suspends
      exact policyOf_of_refused _ (all_getElem?_idx k) entry (policyEntry_of_fixed_suspend fixed zero)
  · exact if_neg nine

/-- The policy that masks the kinds of `masked` and aborts at the kinds of `aborts`. -/
def policyFor (masked aborts : FaultKind → Bool) : Vector PolicyEntry 9 :=
  ⟨(FaultKind.all.map fun k => entryFor (masked k) (aborts k)).toArray, rfl⟩

variable (masked aborts : FaultKind → Bool)

/-- The request that asks for that policy: one entry for each kind in the order of R139. -/
def policyRequest : List (Byte × Byte) := FaultKind.all.map fun k => (flagByte (!masked k), flagByte (aborts k))

theorem policyFor_idx (k : FaultKind) : (policyFor masked aborts)[k.idx] = entryFor (masked k) (aborts k) := by
  cases k <;> rfl

/-- The request for a policy is read as that policy. -/
theorem policyOf_policyRequest (fixed : ∀ k, k.fixedAbort = true → aborts k = true) :
    policyOf (policyRequest masked aborts) = some (policyFor masked aborts) := by
  have paired : FaultKind.all.zip (policyRequest masked aborts) =
      FaultKind.all.map fun k => (k, flagByte (!masked k), flagByte (aborts k)) := rfl
  have read : (FaultKind.all.zip (policyRequest masked aborts)).mapM (fun p => policyEntry p.1 p.2) =
      some (FaultKind.all.map fun k => entryFor (masked k) (aborts k)) := by
    have each : (fun p : FaultKind × Byte × Byte => policyEntry p.1 p.2) ∘
        (fun k => (k, flagByte (!masked k), flagByte (aborts k))) =
          fun k => some (entryFor (masked k) (aborts k)) := funext fun k => policyEntry_codes (masked k) (fixed k)
    rw [paired, List.mapM_map, each]
    exact List.mapM_pure ..
  have nine : (policyRequest masked aborts).length = 9 := rfl
  rw [policyOf, if_pos nine, read]
  exact dif_pos rfl

/-- The policy is answered by the bytes of its request. -/
theorem policyBytes_policyFor :
    policyBytes (policyFor masked aborts) = (policyRequest masked aborts).flatMap fun p => [p.1, p.2] := by
  rw [policyBytes, policyFor, policyRequest, List.flatMap_map]
  exact (List.flatMap_map ..).trans (List.flatMap_congr fun k _ => entryFor_bytes (masked k) (aborts k))

end Sys2Proof.Machine

namespace Sys2Proof.Proofs

open Sys2Proof.Machine

/-- Settles O28: the checks of CLEAR FAULTS, and the cleared record by `doClearFaults_codes`. -/
theorem clearFaultsRemovesKinds : Obligations.ClearFaultsRemovesKinds := by
  intro s r takes
  refine ⟨fun b bs bad => operatorRow_refuses takes ?_, fun h ks nonempty => ?_⟩
  · by_cases noHead : 16 ≤ b.toNat
    · exact withHead_none noHead ..
    · exact withHead_refuses b fun h => by rw [clearSet_none (bad.resolve_left noHead)]
  · intro f status gone f'
    have cleared : (s.head h).fr.cleared ks = f' := rfl
    rw [State.modHead_congr s h (f' := fun x => { x with fr := x.fr.cleared ks }) (by rw [cleared])]
    exact operatorRow_does takes (doClearFaults_codes h nonempty _)

/-- Settles O36: what R141 refuses by `policyOf_none`; any other policy is read as asked by `policyOf_policyRequest`. -/
theorem writeFaultPolicyReplacesPolicy : Obligations.WriteFaultPolicyReplacesPolicy := by
  intro s r takes
  refine ⟨fun es bad => engineerRow_refuses takes ?_, fun masked aborts fixed =>
    ⟨policyFor masked aborts, policyFor_idx masked aborts, engineerRow_does takes ?_⟩⟩
  · rw [doWriteFaultPolicy, policyOf_none bad]
  · change doWriteFaultPolicy (policyRequest masked aborts) _ = _
    rw [doWriteFaultPolicy, policyOf_policyRequest masked aborts fixed]
    dsimp only
    rw [policyBytes_policyFor]
    rfl

end Sys2Proof.Proofs
end

section
/-! PROOFS. READ RESULTS and PEEK RESULTS (R167, R168). -/

namespace Sys2Proof.Machine

variable {s : State} {n : Byte}

/-- A count outside 1-4 is refused by READ RESULTS. -/
theorem doReadResults_refuses (out : n.toNat = 0 ∨ 5 ≤ n.toNat) : doReadResults n s = refuse .badArgument s :=
  if_pos (by omega)

/-- A count outside 1-4 is refused by PEEK RESULTS. -/
theorem doPeekResults_refuses (out : n.toNat = 0 ∨ 5 ≤ n.toNat) : doPeekResults n s = refuse .badArgument s :=
  if_pos (by omega)

/-- READ RESULTS with a count of 1-4 removes the oldest records and returns them. -/
theorem doReadResults_of_count (low : 1 ≤ n.toNat) (high : n.toNat ≤ 4) :
    doReadResults n s =
      accept (resultReply (s.results.take n.toNat) { s with results := s.results.drop n.toNat })
        { s with results := s.results.drop n.toNat } :=
  if_neg (by omega)

/-- PEEK RESULTS with a count of 1-4 returns the oldest records and leaves the queue. -/
theorem doPeekResults_of_count (low : 1 ≤ n.toNat) (high : n.toNat ≤ 4) :
    doPeekResults n s = accept (resultReply (s.results.take n.toNat) s) s :=
  if_neg (by omega)

/-- The front part of a list with as many entries as a count asks for, or all where it has fewer, is what the
count takes, and the rest is what it drops. -/
theorem take_drop_of_front {α : Type} {l front rest : List α} {k : Nat} (parts : l = front ++ rest)
    (size : front.length = min k l.length) : l.take k = front ∧ l.drop k = rest :=
  List.append_inj ((List.take_append_drop k l).trans parts) (List.length_take.trans size.symm)

end Sys2Proof.Machine

namespace Sys2Proof.Proofs

open Sys2Proof.Machine

/-- Settles O19: the count is checked first; the records of a legal count are the front of the queue, which READ
RESULTS parts from the rest and PEEK RESULTS leaves with it. -/
theorem resultReadsTakeOldest : Obligations.ResultReadsTakeOldest := by
  intro s r n takes
  refine ⟨fun low high taken left parts size => ?_, fun out =>
    ⟨operatorRow_refuses takes (doReadResults_refuses out), operatorRow_refuses takes (doPeekResults_refuses out)⟩⟩
  obtain ⟨rfl, rfl⟩ := take_drop_of_front parts size
  exact ⟨operatorRow_does takes (doReadResults_of_count low high),
    operatorRow_accepts takes (doPeekResults_of_count low high)⟩

end Sys2Proof.Proofs
end

section
/-! PROOFS. The resets at the pin, and the commands without checks: ACK COLD START, CLEAR COUNTERS and RESET PART (R187,
R189, R197, R199-R201). -/

namespace Sys2Proof.Machine

variable {s : State} {r : ReqHead}

/-- While RST_N is held low a command is a row that waits for the release, but for the two that act on the hold (log
4). -/
theorem exec_of_held (held : s.rstHeld = true) (c : Instr) (notPowerOn : ∀ straps low, c ≠ .powerOnReset straps low)
    (notRelease : ∀ f, c ≠ .rstNRelease f) : exec c s = .next s := by
  cases c with
  | powerOnReset straps low => exact absurd rfl (notPowerOn straps low)
  | rstNRelease f => exact absurd rfl (notRelease f)
  | portSendEnd e => exact live_of_held (fun s => sendEnd { s with engEn := e }) held
  | _ => exact live_of_held _ held

/-- Clearing every counter writes zeroes into the heads, the Ring Port and the Interlock Monitor (R199). -/
theorem zeroCounters_eq (s : State) :
    zeroCounters s =
      { s with
          heads := s.heads.map fun x => { x with deviations := Vector.replicate 11 0 },
          rp := { s.rp with counters := Vector.replicate 9 0 },
          interlocks := { s.interlocks with timeouts := 0 } } := by
  have heads : (s.modAllHeads fun _ x => { x with deviations := Vector.replicate 11 0 }).heads =
      s.heads.map fun x => { x with deviations := Vector.replicate 11 0 } :=
    Vector.ext fun i _ => by simp [State.modAllHeads]
  simp only [zeroCounters, ← heads, State.modRp, State.modAllHeads]

end Sys2Proof.Machine

namespace Sys2Proof.Proofs

open Sys2Proof.Machine

/-- Settles O3: every other command is held by `exec_of_held`; the mark the release leaves drops the next arrival. -/
theorem heldResetIgnoresOtherEvents : Obligations.HeldResetIgnoresOtherEvents := by
  refine ⟨fun c s held notPowerOn notRelease => exec_of_held held c notPowerOn notRelease,
    fun f s held => congrArg Host.Outcome.next (if_pos held), fun bytes e s up skips => ?_⟩
  exact (live_of_running (receive e (arriveFrame bytes)) up).trans (congrArg Host.Outcome.next (if_pos skips))

/-- Settles O4: the row is `powerOn` in every state. -/
theorem powerOnResetGivesResetState : Obligations.PowerOnResetGivesResetState :=
  fun _ _ _ => rfl

/-- Settles O37: each command's body accepts with its effect; RESET PART's reply is sent with the mark. -/
theorem commandsWithoutChecks : Obligations.CommandsWithoutChecks := by
  intro s r takes
  refine ⟨operatorRow_does takes rfl, operatorRow_does takes ?_, fun engineer => ?_⟩
  · rw [doClearCounters, zeroCounters_eq]
  · exact engineerRow_of_takes ⟨takes, engineer⟩ 44 [] doResetPart

end Sys2Proof.Proofs
end

section
/-! PROOFS. A management row is the arrival of one request, which waits or is taken (R182, R190-R192). -/

namespace Sys2Proof.Machine

variable {s : State} {r : ReqHead} {code : Byte} {args : List Byte}

/-! ### What a row does with its request -/

/-- The taking of a command's request: with a body, under the authority its code asks for (R190, R191). -/
def serve (q : Request) (body : State → Answer) : State → State :=
  if q.code.toNat < 32 then serveOperator q body else serveEngineer q body

theorem serve_of_operator (low : code.toNat < 32) (body : State → Answer) :
    serve (rowRequest r code args) body = serveOperator (rowRequest r code args) body := if_pos low

theorem serve_of_engineer (low : 32 ≤ code.toNat) (body : State → Answer) :
    serve (rowRequest r code args) body = serveEngineer (rowRequest r code args) body := if_neg (Nat.not_lt.2 low)

/-- Every management row is the arrival of its request, and its taking serves a body of a code of the table;
UNKNOWN_COMMAND's row takes its request by the code it carries. -/
theorem exec_request {c : Instr} (request : c.request = some (r, code, args)) :
    ∃ take, (∀ s, exec c s = live (commandArrives r code args take) s)
      ∧ (take = carryOut (rowRequest r code args)
        ∨ commandCodes.contains code.toNat = true ∧ ∃ body, take = serve (rowRequest r code args) body) := by
  cases c with
  | powerOnReset | softReset | frameArrival | portSendEnd | slotExpiry | segmentTimerExpiry | sampleTimerExpiry
  | resumeWindowExpiry | rescueLimitExpiry | wakeTimerExpiry | statusTimerExpiry | idleTimerExpiry
  | interlockFrameTimerExpiry | timebaseTick | rstNRelease => cases request
  | unknownCommand => cases request; exact ⟨_, fun _ => rfl, .inl rfl⟩
  | _ => cases request; exact ⟨_, fun _ => rfl, .inr ⟨rfl, _, rfl⟩⟩

/-! ### The arrival of a request (R180, R182, R192) -/

/-- A request to the part in normal operation reaches the Management Unit (R180, R182). -/
theorem commandArrives_reaches (up : s.rstHeld = false) (fresh : s.rp.skipFrame = false) (low : s.rp.station ≠ 0)
    (high : s.rp.station ≠ 63) (foreign : r.source ≠ s.ownStation) (take : State → State) :
    live (commandArrives r code args take) s =
      .next (requestArrives (rowRequest r code args) take { s with engEn := r.engEn }) := by
  have normal : ¬ State.transparent { s with engEn := r.engEn } = true := by
    rw [State.transparent, Bool.or_eq_true, beq_iff_eq, beq_iff_eq, not_or]
    exact ⟨low, high⟩
  rw [live_of_running _ up, commandArrives, receive]
  dsimp only
  rw [if_neg (Bool.eq_false_iff.1 fresh), if_neg normal]
  exact congrArg Host.Outcome.next (if_neg foreign)

/-- A request that finds four waiting is dropped and counted. -/
theorem requestArrives_of_full (full : 4 ≤ s.mu.requests.length) (q : Request) (take : State → State) :
    requestArrives q take s = s.countPort .requestOverflow := if_pos full

/-- A request that finds the MU not ready, or others waiting, waits behind them. -/
theorem requestArrives_of_busy (room : s.mu.requests.length < 4)
    (busy : 4 ≤ s.rp.replies.length ∨ s.mu.resetPending = true ∨ s.mu.requests ≠ []) (q : Request)
    (take : State → State) :
    requestArrives q take s = s.modMu fun m => { m with requests := m.requests ++ [q] } := by
  have waits : ¬ (s.muReady && s.mu.requests.isEmpty) = true := by
    simp only [State.muReady, Bool.and_eq_true, decide_eq_true_eq, Bool.not_eq_true', List.isEmpty_iff]
    rintro ⟨⟨places, clear⟩, empty⟩
    rcases busy with full | pending | waiting
    · omega
    · rw [clear] at pending; cases pending
    · exact waiting empty
  rw [requestArrives, if_neg (by omega), if_neg waits]

/-! ### The taking of a request (R190-R192) -/

/-- Where a reply begins to leave, the oldest waiting request is taken, unless a soft reset is pending (R192). -/
theorem nextFrame_of_reply {f : TxFrame} {rest : List TxFrame} {q : Request} {qs : List Request}
    (drive : s.rp.drive = []) (forward : s.rp.forward = []) (replies : s.rp.replies = f :: rest)
    (requests : s.mu.requests = q :: qs) (clear : s.mu.resetPending = false) :
    nextFrame s =
      carryOut q
        { s with rp := { s.rp with port := some f, replies := rest }, mu := { s.mu with requests := qs } } := by
  have reply : (s.rp.nextIsReply && !s.mu.resetPending) = true := by
    simp [RingPort.nextIsReply, drive, forward, replies, clear]
  simp only [nextFrame, if_pos reply, RingPort.beginNext_replies drive forward replies, takeOldest,
    State.modRp, requests]
  rfl

/-- An engineer command's request is served with its code's body (R190). -/
theorem carryOut_engineer {q : Request} (low : 32 ≤ q.code.toNat) (high : q.code.toNat ≤ 44) :
    ∃ body, carryOut q = serveEngineer q body := by
  unfold carryOut
  generalize q.code.toNat = code at low high
  interval_cases code <;> exact ⟨_, rfl⟩

/-- A code outside the table is answered UNKNOWN_COMMAND (R190). -/
theorem carryOut_unknown {q : Request} (unknown : commandCodes.contains q.code.toNat = false) :
    carryOut q = serveOperator q (refuse .unknownCommand) := by
  unfold carryOut
  split
  case h_33 => rfl
  all_goals
    next code => rw [code] at unknown; cases unknown

/-- A row of an engineer command taken without authority is answered DENIED, whatever its arguments (R190, R191). -/
theorem exec_denied {c : Instr} (request : c.request = some (r, code, args)) (low : 32 ≤ code.toNat)
    (high : code.toNat ≤ 44) (takes : s.Takes r) (operator : ¬ IsEngineer r) :
    exec c s = .next (s.answered r code .denied []) := by
  obtain ⟨take, row, served⟩ := exec_request request
  rw [row]
  rcases served with rfl | ⟨-, body, rfl⟩
  · obtain ⟨body, engineer⟩ := carryOut_engineer (q := rowRequest r code args) low high
    rw [engineer]
    exact engineerRow_answersDenied takes operator
  · rw [serve_of_engineer low]
    exact engineerRow_answersDenied takes operator

/-- A row of a command that is not in the table is answered UNKNOWN_COMMAND, whatever its arguments (R190). -/
theorem exec_unknown (takes : s.Takes r) (unknown : commandCodes.contains code.toNat = false) :
    exec (.unknownCommand r code args) s = .next (s.answered r code .unknownCommand []) := by
  refine (commandArrives_of_takes takes ..).trans ?_
  rw [carryOut_unknown unknown]
  rfl

end Sys2Proof.Machine

namespace Sys2Proof.Proofs

open Sys2Proof.Machine

/-- Settles O13: what the queue makes of a row's request, by `requestArrives`; the taking by `nextFrame`. -/
theorem requestsWaitInOrder : Obligations.RequestsWaitInOrder := by
  refine ⟨fun c s r code args request up fresh low high foreign => ?_, fun s e cur f rest q qs up sends unmarked drive
    forward replies requests clear => ?_⟩
  · obtain ⟨take, row, -⟩ := exec_request request
    rw [row, commandArrives_reaches up fresh low high foreign]
    let u : State := { s with engEn := r.engEn }
    exact ⟨fun full => congrArg Host.Outcome.next (requestArrives_of_full (s := u) full _ _),
      fun room busy => congrArg Host.Outcome.next (requestArrives_of_busy (s := u) room busy _ _)⟩
  · exact (exec_portSendEnd up sends unmarked e).trans
      (congrArg Host.Outcome.next (nextFrame_of_reply drive forward replies requests clear))

end Sys2Proof.Proofs
end

section
/-! PROOFS. The check value, frames read back, and the receive checks in their order (R173-R176, R180, R181). -/

namespace Sys2Proof.Machine

variable {s : State} {dst src kind : Byte} {payload : List Byte}

/-! ### The check value (R175) -/

/-- One message bit moves the register by one place, and mixes it where the bit differs from the register's lowest. -/
theorem crcBit_eq (reg : BitVec 16) (bit : Bool) :
    crcBit reg bit = if reg.getLsbD 0 = bit then reg >>> 1 else (reg >>> 1) ^^^ 0xA001#16 := by
  unfold crcBit
  cases reg.getLsbD 0 <;> cases bit <;> rfl

/-- One byte's eight bits move the register, least significant first. -/
theorem crc_concat (bs : List Byte) (b : Byte) : crc (bs ++ [b]) = crcByte (crc bs) b := by
  rw [crc, List.foldl_append]
  rfl

/-- The bytes of the check, low byte first, are its two halves. -/
theorem le16_toNat (w : BitVec 16) : le16 w.toNat = [w.extractLsb' 0 8, w.extractLsb' 8 8] := by
  have low : byte w.toNat = w.extractLsb' 0 8 := BitVec.eq_of_toNat_eq (by simp [byte])
  have high : byte (w.toNat / 256) = w.extractLsb' 8 8 :=
    BitVec.eq_of_toNat_eq (by simp [byte, Nat.shiftRight_eq_div_pow])
  rw [le16, low, high]

/-- A built frame is its fields, its payload and its check (R174). -/
theorem mkFrame_eq (dst src kind : Byte) (payload : List Byte) :
    mkFrame dst src kind payload =
      [dst, src, kind, byte payload.length] ++ payload
        ++ [(crc ([dst, src, kind, byte payload.length] ++ payload)).extractLsb' 0 8,
          (crc ([dst, src, kind, byte payload.length] ++ payload)).extractLsb' 8 8] := by
  rw [mkFrame, le16_toNat]
  rfl

/-! ### The receive checks (R180) -/

theorem transparent_iff : s.transparent = true ↔ s.rp.station = 0 ∨ s.rp.station = 63 := by
  rw [State.transparent, Bool.or_eq_true, beq_iff_eq, beq_iff_eq]

/-- The part's own station is a station number. -/
theorem ownStation_le (s : State) : s.ownStation.toNat ≤ 63 := by
  have := s.rp.station.isLt
  rw [State.ownStation, BitVec.toNat_setWidth]
  omega

/-- Check 3 of R180 on a frame of at most 248 bytes of payload: the lengths a consumed kind may not have (R178). -/
theorem wrongLength_iff (fits : payload.length ≤ 248) :
    wrongLength ⟨dst, src, kind, byte payload.length, payload⟩ = true ↔
      ((kind = 1 ∨ kind = 2) ∧ payload.length ≠ 8) ∨ (kind = 3 ∧ payload.length ≠ 7)
        ∨ (kind = 4 ∧ payload.length < 4) := by
  have length : (byte payload.length).toNat = payload.length := toNat_byte (by omega)
  have is : ∀ n : Byte, byte payload.length ≠ n ↔ payload.length ≠ n.toNat := fun n => by
    rw [Ne, ← BitVec.toNat_inj, length]
  simp only [wrongLength, kindSample, kindGenstat, kindInterlock, kindRequest, Bool.or_eq_true, Bool.and_eq_true,
    beq_iff_eq, bne_iff_ne, decide_eq_true_eq, is, length]
  tauto

/-- What arrives with too few bytes or a check field that does not match is counted CRC_ERROR. -/
theorem arriveFrame_of_damaged {bytes : List Byte} (damaged : bytes.length < 6 ∨ crcMatches bytes = false) (s : State) :
    arriveFrame bytes s = s.countPort .crcError := if_pos damaged

/-- A frame whose check field matches is counted MALFORMED for a length or destination out of range, whatever its
size. -/
theorem arriveFrame_of_malformed {len : Byte} {rest bytes : List Byte} (frame : bytes = dst :: src :: kind :: len :: rest)
    (enough : 6 ≤ bytes.length) (whole : crcMatches bytes = true)
    (bad : 248 < len.toNat ∨ bytes.length ≠ 6 + len.toNat ∨ 63 < dst.toNat) (s : State) :
    arriveFrame bytes s = s.countPort .malformed := by
  have sound : ¬ (bytes.length < 6 ∨ crcMatches bytes = false) :=
    fun damaged => damaged.elim (Nat.not_lt.2 enough) (Bool.eq_false_iff.1 · whole)
  subst frame
  rw [arriveFrame, if_neg sound]
  exact if_pos bad

/-- The checks of R180 on a built frame, in their order. -/
theorem arriveFrame_built (fits : payload.length ≤ 248) :
    arriveFrame (mkFrame dst src kind payload) s =
      if 63 < dst.toNat then s.countPort .malformed
      else if s.transparent then s.modRp fun rp => rp.placeForward (mkFrame dst src kind payload)
      else if dst = s.ownStation ∧ wrongLength ⟨dst, src, kind, byte payload.length, payload⟩ then
        s.countPort .malformed
      else if src = s.ownStation then s.countPort .returned
      else if dst = s.ownStation then consume ⟨dst, src, kind, byte payload.length, payload⟩ s
      else s.modRp fun rp => rp.placeForward (mkFrame dst src kind payload) := by
  have sound : ¬ ((mkFrame dst src kind payload).length < 6 ∨ crcMatches (mkFrame dst src kind payload) = false) := by
    rw [crcMatches_mkFrame, mkFrame_length]; simp
  have length : (byte payload.length).toNat = payload.length := toNat_byte (by omega)
  have range : (248 < payload.length ∨ (mkFrame dst src kind payload).length ≠ 6 + payload.length ∨ 63 < dst.toNat) ↔
      63 < dst.toNat := by rw [mkFrame_length]; omega
  rw [arriveFrame, if_neg sound, routeFrame, fieldsOf_mkFrame]
  dsimp only
  rw [length]
  exact if_congr range rfl rfl

/-- A frame of no consumed kind is counted UNKNOWN_KIND (R176). -/
theorem consume_of_unknown {f : Received} (notSample : f.kind ≠ 1) (notGenstat : f.kind ≠ 2) (notInterlock : f.kind ≠ 3)
    (notRequest : f.kind ≠ 4) (s : State) : consume f s = s.countPort .unknownKind :=
  (if_neg notSample).trans ((if_neg notGenstat).trans ((if_neg notInterlock).trans (if_neg notRequest)))

/-- A frame of a kind with a configured source is counted FOREIGN_SOURCE from any other (R181). -/
theorem consume_of_foreign {f : Received}
    (foreign : (f.kind = 1 ∧ sourceOk s.mu.config.concentrator f.src = false)
      ∨ (f.kind = 2 ∧ sourceOk (s.genstatStation f.payload) f.src = false)
      ∨ (f.kind = 3 ∧ sourceOk s.mu.config.ioStation f.src = false)) :
    consume f s = s.countPort .foreignSource := by
  unfold consume
  rcases foreign with ⟨is, other⟩ | ⟨is, other⟩ | ⟨is, other⟩ <;> rw [is, other] <;> rfl

theorem sourceOk_eq_false {station : Nat} {src : Byte} (given : station ≠ 0) (other : station ≠ src.toNat) :
    sourceOk station src = false := by
  rw [sourceOk, beq_eq_false_iff_ne.2 given, beq_eq_false_iff_ne.2 other, Bool.or_self]

/-- A GENSTAT's source is compared with the station of the generator it names (R181). -/
theorem genstatStation_of_head {g : GenId} (names : payload.head? = some (genCode g)) :
    s.genstatStation payload = s.mu.config.station g := by
  rw [State.genstatStation, names, Option.bind_some, genOf_genCode]

end Sys2Proof.Machine

namespace Sys2Proof.Proofs

open Sys2Proof.Machine

/-- Settles O9: the register's move by `crcBit_eq`, bit by bit; the built frame by `mkFrame_eq` and its readings. -/
theorem originatedFrameReadsBack : Obligations.OriginatedFrameReadsBack := by
  refine ⟨rfl, fun bs b => ?_, by decide +kernel, fun dst src kind payload _ =>
    ⟨mkFrame_eq .., mkFrame_length .., crcMatches_mkFrame .., fieldsOf_mkFrame ..⟩⟩
  simp only [crc_concat, crcByte, List.foldl_cons, List.foldl_nil, crcBit_eq]

/-- Settles O10: the checks in their order are the branches of `arriveFrame_built`. -/
theorem receptionChecksInOrder : Obligations.ReceptionChecksInOrder := by
  intro s e up fresh
  let u : State := { s with engEn := e }
  have arrives : ∀ {bytes t}, arriveFrame bytes u = t → exec (.frameArrival bytes e) s = .next t := fun {bytes _} x =>
    (exec_frameArrival up fresh bytes e).trans (congrArg Host.Outcome.next x)
  refine ⟨fun bytes damaged => arrives (arriveFrame_of_damaged damaged u),
    fun dst src kind len rest enough whole bad => arrives (arriveFrame_of_malformed rfl enough whole bad u),
    fun dst src kind payload fits => ?_⟩
  intro f n transparent wrong
  have checks := arriveFrame_built (s := u) (dst := dst) (src := src) (kind := kind) fits
  have isTransparent : u.transparent = true ↔ transparent := transparent_iff
  have isWrong : wrongLength ⟨dst, src, kind, byte payload.length, payload⟩ = true ↔ wrong := wrongLength_iff fits
  have route := fun low : dst.toNat ≤ 63 => checks.trans (if_neg (Nat.not_lt.2 low))
  have own := fun (closed : ¬ transparent) (low : dst.toNat ≤ 63) =>
    (route low).trans (if_neg (mt isTransparent.1 closed))
  have station : dst = s.ownStation → dst.toNat ≤ 63 := fun here => here ▸ ownStation_le s
  have right := fun (closed : ¬ transparent) (low : dst.toNat ≤ 63) (fine : ¬ (dst = s.ownStation ∧ wrong)) =>
    (own closed low).trans (if_neg fun bad => fine ⟨bad.1, isWrong.1 bad.2⟩)
  have consumes := fun (closed : ¬ transparent) (here : dst = s.ownStation) (foreign : src ≠ s.ownStation)
    (fine : ¬ wrong) => (right closed (station here) fun bad => fine bad.2).trans
      ((if_neg foreign).trans (if_pos here))
  refine ⟨fun out => arrives (checks.trans (if_pos out)), fun low passes => arrives ?_,
    fun closed here bad => arrives ?_, fun low closed mine fine => arrives ?_,
    fun closed here foreign k1 k2 k3 k4 => arrives ?_, fun closed here foreign source => arrives ?_⟩
  · by_cases open' : transparent
    · exact (route low).trans (if_pos (isTransparent.2 open'))
    · obtain ⟨away, foreign⟩ := passes.resolve_left open'
      exact (right open' low fun bad => away bad.1).trans ((if_neg foreign).trans (if_neg away))
  · exact (own closed (station here)).trans (if_pos ⟨here, isWrong.2 bad⟩)
  · exact (right closed low fine).trans (if_pos mine)
  · exact (consumes closed here foreign (by
      simp only [wrong, k1, k2, k3, k4, false_and, or_self, not_false_iff])).trans (consume_of_unknown k1 k2 k3 k4 u)
  · have fine : ¬ wrong := by
      rcases source with ⟨rfl, size, -⟩ | ⟨rfl, size, -⟩ | ⟨rfl, size, -⟩ <;> simp [wrong, size]
    refine (consumes closed here foreign fine).trans (consume_of_foreign ?_)
    rcases source with ⟨is, -, given, other⟩ | ⟨is, -, given, other⟩ | ⟨is, -, g, names, given, other⟩
    · exact .inl ⟨is, sourceOk_eq_false given other⟩
    · exact .inr (.inr ⟨is, sourceOk_eq_false given other⟩)
    · exact .inr (.inl ⟨is, (congrArg (sourceOk · src) (genstatStation_of_head names)).trans
        (sourceOk_eq_false given other)⟩)

end Sys2Proof.Proofs
end

section
/-! PROOFS. What a reader of arguments reads: a front part of the bytes, whatever follows it, and the value it was
encoded from (R177, R190). -/

namespace Sys2Proof.Machine

/-! ### A reader reads a front part -/

/-- What the reader reads is a front part of the bytes: the value does not hang on what follows. -/
def ReadsFront {α : Type} (p : Reader α) : Prop :=
  ∀ bs a rest more, p bs = some (a, rest) → p (bs ++ more) = some (a, rest ++ more)

namespace ReadsFront

variable {α β : Type}

theorem byte : ReadsFront readByte
  | _ :: _, _, _, _, e => by cases e; rfl

theorem word16 : ReadsFront read16
  | _ :: _ :: _, _, _, _, e => by cases e; rfl

theorem word32 : ReadsFront read32
  | _ :: _ :: _ :: _ :: _, _, _, _, e => by cases e; rfl

theorem openCode (f : OpenField) : ReadsFront (readOpen f) := by
  rintro (_ | ⟨b, bs⟩) v rest more e
  · cases e
  · obtain ⟨w, read, same⟩ := Option.map_eq_some_iff.1 e
    cases same
    exact congrArg (Option.map fun v => (v, bs ++ more)) read

theorem value (a : α) : ReadsFront (readPure a) := by
  intro bs b rest more e
  cases e
  rfl

theorem andThen {p : Reader α} {f : α → Reader β} (first : ReadsFront p) (later : ∀ a, ReadsFront (f a)) :
    ReadsFront (andThen p f) := by
  intro bs b rest more e
  unfold Machine.andThen at e ⊢
  split at e
  next a mid read =>
    rw [first bs a mid more read]
    exact later a mid b rest more e
  · cases e

theorem optional {p : Reader α} (item : ReadsFront p) : ReadsFront (readOpt p) :=
  .andThen (.openCode _) fun present => match present with
    | true => .andThen item fun _ => .value _
    | false => .value _

theorem many {p : Reader α} (item : ReadsFront p) : ∀ n, ReadsFront (readMany p n)
  | 0 => .value _
  | n + 1 => .andThen item fun _ => .andThen (many item n) fun _ => .value _

theorem list {p : Reader α} (item : ReadsFront p) : ReadsFront (readList p) :=
  .andThen .byte fun n => .many item n.toNat

theorem pair : ReadsFront readPair := .andThen .byte fun _ => .andThen .byte fun _ => .value _

theorem start : ReadsFront readStart :=
  .andThen .byte fun _ => .andThen .byte fun _ => .andThen .word32 fun _ => .value _

theorem resume : ReadsFront readResume :=
  .andThen .byte fun _ => .andThen .byte fun _ => .andThen (.openCode _) fun _ => .value _

theorem clearFaults : ReadsFront readClearFaults := .andThen .byte fun _ => .andThen (.list .byte) fun _ => .value _

theorem erase : ReadsFront readErase := .andThen .byte fun _ => .andThen (.optional .word16) fun _ => .value _

theorem writePhases : ReadsFront readWritePhases :=
  .andThen .byte fun _ => .andThen .byte fun _ => .andThen (.list .byte) fun _ => .andThen .byte fun _ => .value _

theorem headConfig : ReadsFront readHeadConfig :=
  .andThen .byte fun _ => .andThen .byte fun _ => .andThen .byte fun _ => .andThen (.openCode _) fun _ =>
  .andThen .word16 fun _ => .andThen .word16 fun _ => .andThen .word16 fun _ =>
  .andThen (.openCode _) fun _ => .andThen (.openCode _) fun _ => .andThen (.openCode _) fun _ => .value _

theorem partConfig : ReadsFront readPartConfig :=
  .andThen .word16 fun _ => .andThen .byte fun _ => .andThen .byte fun _ => .andThen .byte fun _ =>
  .andThen .byte fun _ => .andThen .byte fun _ => .andThen .word16 fun _ => .andThen .word16 fun _ =>
  .andThen .word16 fun _ => .andThen .word16 fun _ => .andThen .word16 fun _ => .andThen .word16 fun _ =>
  .andThen .word16 fun _ => .andThen .word16 fun _ => .andThen .word16 fun _ => .andThen .byte fun _ =>
  .andThen .byte fun _ => .value _

theorem segment : ReadsFront readSegment := by
  refine .andThen .byte fun kind => ?_
  split
  · exact .andThen .word16 fun _ => .andThen .word16 fun _ => .andThen .word16 fun _ => .andThen .word16 fun _ =>
      .andThen .word16 fun _ => .value _
  split
  · exact .andThen .word16 fun _ => .andThen .word16 fun _ => .andThen .word16 fun _ => .value _
  split
  · exact .andThen .word16 fun _ => .andThen .word16 fun _ => .value _
  · exact fun _ _ _ _ e => nomatch e

theorem criteria : ReadsFront readCriteria :=
  .andThen (.optional .word16) fun _ => .andThen (.optional .word16) fun _ => .andThen (.optional .word32) fun _ =>
  .andThen (.optional .word32) fun _ => .andThen (.optional .word32) fun _ => .andThen (.optional .word32) fun _ =>
  .andThen (.optional .byte) fun _ => .andThen (.openCode _) fun _ => .value _

theorem writeProfile : ReadsFront readWriteProfile :=
  .andThen .byte fun _ => .andThen (.optional .word16) fun _ => .andThen .word16 fun _ => .andThen .word16 fun _ =>
  .andThen .byte fun _ => .andThen .byte fun _ => .andThen .byte fun _ => .andThen .word16 fun _ =>
  .andThen .word16 fun _ => .andThen .byte fun n => .andThen (.many .segment n.toNat) fun _ =>
  .andThen .criteria fun _ => .value _

end ReadsFront

/-! ### Arguments that break off or run on -/

theorem readAll_eq_some_iff {α : Type} {p : Reader α} {bs : List Byte} {a : α} :
    readAll p bs = some a ↔ p bs = some (a, []) := by
  unfold readAll
  split
  next b read => rw [read, Option.some.injEq, Option.some.injEq, Prod.mk.injEq, and_iff_left rfl]
  next other => exact ⟨nofun, fun read => absurd read (other a)⟩

/-- Where some arguments are read whole, none that break off before them or run on past them are. -/
theorem ReadsFront.readAll_none {α : Type} {p : Reader α} (front : ReadsFront p) {args wrong : List Byte} {a : α}
    (whole : readAll p args = some a) (differs : wrong ≠ args) (part : wrong <+: args ∨ args <+: wrong) :
    readAll p wrong = none := by
  rw [readAll_eq_some_iff] at whole
  rw [Option.eq_none_iff_forall_ne_some]
  intro b read
  rw [readAll_eq_some_iff] at read
  rcases part with ⟨more, rfl⟩ | ⟨more, rfl⟩
  · have ends := (front wrong b [] more read).symm.trans whole
    rw [List.nil_append, Option.some.injEq, Prod.mk.injEq] at ends
    exact differs (by rw [ends.2, List.append_nil])
  · have ends := (front args a [] more whole).symm.trans read
    rw [List.nil_append, Option.some.injEq, Prod.mk.injEq] at ends
    exact differs (by rw [ends.2, List.append_nil])

/-! ### Encoded values are read back (R177) -/

/-- A 4-byte value is read back from its bytes. -/
theorem ofLe32_le32 (w : Word32) :
    ofLe32 (byte w.toNat) (byte (w.toNat / 256)) (byte (w.toNat / 65536)) (byte (w.toNat / 16777216)) = w := by
  have small : w.toNat < 4294967296 := w.isLt
  apply BitVec.eq_of_toNat_eq
  rw [ofLe32, BitVec.toNat_append, ← Nat.shiftLeft_add_eq_or_of_lt (BitVec.isLt _), BitVec.toNat_append,
    ← Nat.shiftLeft_add_eq_or_of_lt (BitVec.isLt _), BitVec.toNat_append,
    ← Nat.shiftLeft_add_eq_or_of_lt (BitVec.isLt _)]
  simp only [byte, BitVec.toNat_ofNat, Nat.shiftLeft_eq]
  omega

variable (rest : List Byte)

@[simp] theorem readByte_cons (b : Byte) : readByte (b :: rest) = some (b, rest) := rfl

@[simp] theorem read16_enc16 (w : Word16) : read16 (enc16 w ++ rest) = some (w, rest) := by
  simp only [enc16, le16, List.cons_append, List.nil_append, read16, ofLe16_le16]

@[simp] theorem read32_enc32 (w : Word32) : read32 (enc32 w ++ rest) = some (w, rest) := by
  simp only [enc32, le32, List.cons_append, List.nil_append, read32, ofLe32_le32]

@[simp] theorem readOpen_flagByte (f : OpenField) (b : Bool) : readOpen f (flagByte b :: rest) = some (b, rest) := by
  cases b <;> rfl

/-- A rescue mask's code is that of unmasked. -/
@[simp] theorem readOpen_maskCode (f : OpenField) (b : Bool) : readOpen f (maskCode b :: rest) = some (!b, rest) := by
  cases b <;> rfl

/-- A polarity's code is read as which of the two it is. -/
@[simp] theorem readOpen_polarityCode (f : OpenField) (p : Polarity) :
    readOpen f (polarityCode p :: rest) = some (decide (p = .activeOff), rest) := by
  cases p <;> rfl

@[simp] theorem polarityOf_decide (p : Polarity) : polarityOf (decide (p = .activeOff)) = p := by cases p <;> rfl

theorem readOpt_optBytes {α : Type} {p : Reader α} {enc : α → List Byte}
    (item : ∀ a rest, p (enc a ++ rest) = some (a, rest)) (o : Option α) :
    readOpt p (optBytes enc o ++ rest) = some (o, rest) := by
  cases o with
  | none => rfl
  | some a =>
    change andThen p (fun a => readPure (some a)) (enc a ++ rest) = _
    rw [andThen, item]
    rfl

theorem readMany_flatMap {α : Type} {p : Reader α} {enc : α → List Byte} {as : List α}
    (item : ∀ a ∈ as, ∀ rest, p (enc a ++ rest) = some (a, rest)) :
    readMany p as.length (as.flatMap enc ++ rest) = some (as, rest) := by
  induction as with
  | nil => rfl
  | cons a as ih =>
    have later := ih fun b mem => item b (.tail _ mem)
    rw [List.flatMap_cons, List.append_assoc]
    simp only [List.length_cons, readMany, andThen, item a (.head _), later, readPure]

theorem readList_flatMap {α : Type} {p : Reader α} {enc : α → List Byte} {as : List α} (few : as.length < 256)
    (item : ∀ a ∈ as, ∀ rest, p (enc a ++ rest) = some (a, rest)) :
    readList p (byte as.length :: (as.flatMap enc ++ rest)) = some (as, rest) := by
  rw [readList, andThen, readByte_cons]
  dsimp only
  rw [toNat_byte few, readMany_flatMap rest item]

theorem readList_encList {bs : List Byte} (few : bs.length < 256) :
    readList readByte (encList bs ++ rest) = some (bs, rest) := by
  have read := readList_flatMap rest (p := readByte) (enc := fun b => [b]) few fun b _ rest => readByte_cons rest b
  rwa [List.flatMap_singleton'] at read

end Sys2Proof.Machine
end

section
/-! PROOFS. The arguments of each management row: their bytes are read back, fit a frame, and are answered
BAD_ARGUMENT where they break off or run on (R177, R178, R190). -/

namespace Sys2Proof.Machine

/-! ### Each command's arguments are read back (R177) -/

theorem readAll_encStart (h p : Byte) (n : Word32) : readAll readStart (encStart h p n) = some (h, p, n) := by
  rw [readAll_eq_some_iff]
  have serial := read32_enc32 [] n
  rw [List.append_nil] at serial
  simp [readStart, encStart, andThen, serial, readPure]

theorem readAll_encResume (h k : Byte) (c : Bool) : readAll readResume (encResume h k c) = some (h, k, c) := by
  cases c <;> rfl

theorem readAll_clearFaults (h : Byte) {ks : List Byte} (few : ks.length < 256) :
    readAll readClearFaults (h :: encList ks) = some (h, ks) := by
  rw [readAll_eq_some_iff]
  have kinds := readList_encList [] few
  rw [List.append_nil] at kinds
  simp [readClearFaults, andThen, kinds, readPure]

theorem readErase_encErase (p : Byte) (e : Option Word16) : readErase (encErase p e) = some ((p, e), []) := by
  have expected := readOpt_optBytes [] (fun w rest => read16_enc16 rest w) e
  rw [List.append_nil] at expected
  simp [readErase, encErase, andThen, expected, readPure]

theorem readAll_encLock (p : Byte) (e : Option Word16) : readAll readLock (encLock p e) = some (p, e) := by
  rw [readAll_eq_some_iff]
  cases e with
  | none => rfl
  | some e => exact readErase_encErase p (some e)

theorem readAll_encWritePhases (g i n : Byte) {es : List Byte} (few : es.length < 256) :
    readAll readWritePhases (encWritePhases g i es n) = some (g, i, es, n) := by
  rw [readAll_eq_some_iff]
  simp [readWritePhases, encWritePhases, andThen, readList_encList [n] few, readPure]

theorem readAll_encPairs {ps : List (Byte × Byte)} (few : ps.length < 256) :
    readAll (readList readPair) (encPairs ps) = some ps := by
  have read := readList_flatMap [] (p := readPair) (enc := fun p => [p.1, p.2]) few fun _ _ _ => rfl
  rw [List.append_nil] at read
  exact readAll_eq_some_iff.2 read

theorem readAll_encHeadConfig (w : HeadConfigArg) : readAll readHeadConfig (encHeadConfig w) = some w := by
  rw [readAll_eq_some_iff]
  simp [readHeadConfig, encHeadConfig, andThen, readPure]

theorem readAll_encPartConfig (w : PartConfigArg) : readAll readPartConfig (encPartConfig w) = some w := by
  rw [readAll_eq_some_iff]
  simp [readPartConfig, encPartConfig, andThen, readPure]

/-- A segment of a known kind is read back (R177). -/
theorem readSegment_encSegment {x : SegArg} (known : x.known = true) (rest : List Byte) :
    readSegment (encSegment x ++ rest) = some (x, rest) := by
  cases x with
  | other k => cases known
  | _ => simp [readSegment, encSegment, andThen, readPure]

theorem readCriteria_encCriteria (c : CriteriaArg) (rest : List Byte) :
    readCriteria (encCriteria c ++ rest) = some (c, rest) := by
  have word := fun rest => readOpt_optBytes rest fun w rest => read16_enc16 rest w
  have long := fun rest => readOpt_optBytes rest fun w rest => read32_enc32 rest w
  have short := fun rest => readOpt_optBytes rest (enc := fun b => [b]) fun b rest => readByte_cons rest b
  simp [readCriteria, encCriteria, andThen, word, long, short, readPure]

theorem readAll_encWriteProfile {w : ProfileArg} (count : w.segCount.toNat = w.segments.length)
    (known : ∀ x ∈ w.segments, x.known = true) : readAll readWriteProfile (encWriteProfile w) = some w := by
  rw [readAll_eq_some_iff]
  have expected := fun rest => readOpt_optBytes rest (fun w rest => read16_enc16 rest w) w.expected
  have segments := fun rest =>
    readMany_flatMap rest (p := readSegment) (enc := encSegment) fun x mem => readSegment_encSegment (known x mem)
  have criteria := readCriteria_encCriteria w.criteria []
  rw [List.append_nil] at criteria
  simp [readWriteProfile, encWriteProfile, andThen, expected, count, segments, criteria, readPure]

/-! ### WRITE FAULT POLICY's arguments: all the bytes, as pairs (log 13) -/

/-- All the bytes left, as pairs. -/
def readAllPairs : Reader (List (Byte × Byte)) := fun bs => (readPairs bs).map fun ps => (ps, [])

theorem readAll_readAllPairs (bs : List Byte) : readAll readAllPairs bs = readPairs bs := by
  unfold readAll readAllPairs
  cases readPairs bs <;> rfl

theorem readPairs_encPolicyArgs (ps : List (Byte × Byte)) : readPairs (encPolicyArgs ps) = some ps := by
  induction ps with
  | nil => rfl
  | cons p ps ih => exact congrArg (Option.map fun ps => p :: ps) ih

/-- As many pairs are read as half the bytes. -/
theorem length_of_readPairs {bs : List Byte} {ps : List (Byte × Byte)} (read : readPairs bs = some ps) :
    bs.length = 2 * ps.length := by
  fun_induction readPairs bs generalizing ps with
  | case1 => cases read; rfl
  | case2 x y bs ih =>
    obtain ⟨qs, tail, rfl⟩ := Option.map_eq_some_iff.1 read
    have := ih tail
    simp only [List.length_cons]
    omega
  | case3 => cases read

/-- WRITE FAULT POLICY is taken by reading all its bytes as pairs (R141). -/
theorem carryOut_writeFaultPolicy (r : ReqHead) (bs : List Byte) :
    carryOut (rowRequest r 41 bs) = serve (rowRequest r 41 bs) (withArgs readAllPairs bs doWriteFaultPolicy) := by
  refine congrArg (serveEngineer (rowRequest r 41 bs)) (funext fun s => ?_)
  rw [withArgs, readAll_readAllPairs]
  dsimp only [rowRequest]
  cases readPairs bs <;> rfl

/-! ### What a row's command reads (R177, R190) -/

/-- A body that reads its arguments by `read` answers BAD_ARGUMENT to any that break off before `args` or run on past
them. -/
def RefusesOtherSizes {α : Type} (read : Reader α) (body : α → State → Answer) (args : List Byte) : Prop :=
  ∀ wrong, wrong ≠ args → wrong <+: args ∨ args <+: wrong →
    ∀ s, withArgs read wrong body s = refuse .badArgument s

theorem withArgs_of_read {α : Type} {read : Reader α} {args : List Byte} {a : α} (whole : readAll read args = some a)
    (body : α → State → Answer) : withArgs read args body = body a := by
  funext s
  rw [withArgs, whole]

theorem ReadsFront.refusesOtherSizes {α : Type} {read : Reader α} (front : ReadsFront read) {args : List Byte} {a : α}
    (whole : readAll read args = some a) (body : α → State → Answer) : RefusesOtherSizes read body args := by
  intro wrong differs part s
  rw [withArgs, front.readAll_none whole differs part]

/-- WRITE FAULT POLICY's arguments are nine pairs (log 13): fewer or more are refused. -/
theorem writeFaultPolicy_refusesOtherSizes {args : List Byte} (nine : args.length = 18) :
    RefusesOtherSizes readAllPairs doWriteFaultPolicy args := by
  intro wrong differs part s
  have size : wrong.length ≠ 18 := fun same => differs <| part.elim
    (fun front => front.eq_of_length (same.trans nine.symm))
    fun front => (front.eq_of_length (nine.trans same.symm)).symm
  rw [withArgs, readAll_readAllPairs]
  split
  next ps read =>
    have := length_of_readPairs read
    rw [doWriteFaultPolicy, policyOf_none (.inl (by omega))]
  · rfl

/-- How a row's request is carried out: its code's command reads the arguments by `read`, `body` acts on what is read,
and on the row's own arguments that is `a`, as the row itself acts. Of arguments of another size LOCK and UNLOCK PROFILE
are left out, and WRITE FAULT POLICY but for nine entries (log 13, log 19). -/
structure RowReads {α : Type} (c : Instr) (r : ReqHead) (code : Byte) (args : List Byte) (read : Reader α)
    (body : α → State → Answer) (a : α) : Prop where
  taken : ∀ bs, carryOut (rowRequest r code bs) = serve (rowRequest r code bs) (withArgs read bs body)
  row : ∀ s, exec c s = live (commandArrives r code args (serve (rowRequest r code args) (body a))) s
  whole : readAll read args = some a
  sizes : code ≠ 34 → code ≠ 35 → (code = 41 → args.length = 18) → RefusesOtherSizes read body args

/-- A row whose reader reads a front part refuses every other size. -/
theorem RowReads.of_front {α : Type} {c : Instr} {r : ReqHead} {code : Byte} {args : List Byte} {read : Reader α}
    {body : α → State → Answer} {a : α} (front : ReadsFront read) (whole : readAll read args = some a)
    (taken : ∀ bs, carryOut (rowRequest r code bs) = serve (rowRequest r code bs) (withArgs read bs body))
    (row : ∀ s, exec c s = live (commandArrives r code args (serve (rowRequest r code args) (body a))) s) :
    RowReads c r code args read body a :=
  ⟨taken, row, whole, fun _ _ _ => front.refusesOtherSizes whole body⟩

variable {c : Instr} {r : ReqHead} {code : Byte} {args : List Byte}

/-- Every well-formed row of the table of R190 is carried out by reading its own arguments. -/
theorem rowReads_of_request (request : c.request = some (r, code, args)) (formed : c.wellFormed = true)
    (known : commandCodes.contains code.toNat = true) :
    ∃ (α : Type) (read : Reader α) (body : α → State → Answer) (a : α), RowReads c r code args read body a := by
  cases c with
  | powerOnReset | softReset | frameArrival | portSendEnd | slotExpiry | segmentTimerExpiry | sampleTimerExpiry
  | resumeWindowExpiry | rescueLimitExpiry | wakeTimerExpiry | statusTimerExpiry | idleTimerExpiry
  | interlockFrameTimerExpiry | timebaseTick | rstNRelease => cases request
  | unknownCommand =>
    cases request
    simp only [Instr.wellFormed, known, Bool.not_true, Bool.and_false, Bool.false_and] at formed
    cases formed
  | readStatus | readCounters | readProfile | readHead | readFaults | readResults | peekResults | abort | suspendHead
  | clearHead | clearCoolantLatch | clearGenerator | loadPhases | disableHead | enableHead =>
    cases request
    exact ⟨Byte, readByte, _, _, .of_front .byte rfl (fun _ => rfl) fun _ => rfl⟩
  | readConfig | ackColdStart | clearCounters | resetPart =>
    cases request
    exact ⟨Unit, readNone, _, (), .of_front (.value _) rfl (fun _ => rfl) fun _ => rfl⟩
  | readPhases =>
    cases request
    exact ⟨_, _, _, _, .of_front .pair rfl (fun _ => rfl) fun _ => rfl⟩
  | start =>
    cases request
    exact ⟨_, _, _, _, .of_front .start (readAll_encStart ..) (fun _ => rfl) fun _ => rfl⟩
  | resumeHead =>
    cases request
    exact ⟨_, _, _, _, .of_front .resume (readAll_encResume ..) (fun _ => rfl) fun _ => rfl⟩
  | clearFaults r h ks =>
    cases request
    have few : ks.length < 256 := by simp [Instr.wellFormed, maxArgs] at formed; omega
    exact ⟨_, _, _, _, .of_front .clearFaults (readAll_clearFaults h few) (fun _ => rfl) fun _ => rfl⟩
  | writeProfile r w =>
    cases request
    obtain ⟨count, kinds⟩ : w.segCount.toNat = w.segments.length ∧ ∀ x ∈ w.segments, x.known = true := by
      simp only [Instr.wellFormed, ProfileArg.wellFormed, Bool.and_eq_true, decide_eq_true_eq, List.all_eq_true]
        at formed
      exact formed.2.1
    exact ⟨_, _, _, _, .of_front .writeProfile (readAll_encWriteProfile count kinds) (fun _ => rfl) fun _ => rfl⟩
  | eraseProfile r p e =>
    cases request
    exact ⟨_, _, _, _,
      .of_front .erase (readAll_eq_some_iff.2 (readErase_encErase p e)) (fun _ => rfl) fun _ => rfl⟩
  | lockProfile r p e =>
    cases request
    exact ⟨_, readLock, fun a => doLockProfile a.1, (p, e),
      ⟨fun _ => rfl, fun _ => rfl, readAll_encLock p e, fun other _ _ => absurd rfl other⟩⟩
  | unlockProfile r p e =>
    cases request
    exact ⟨_, readLock, fun a => doUnlockProfile a.1, (p, e),
      ⟨fun _ => rfl, fun _ => rfl, readAll_encLock p e, fun _ other _ => absurd rfl other⟩⟩
  | writePhases r g i es n =>
    cases request
    have few : es.length < 256 := by simp [Instr.wellFormed, maxArgs] at formed; omega
    exact ⟨_, _, _, _, .of_front .writePhases (readAll_encWritePhases g i n few) (fun _ => rfl) fun _ => rfl⟩
  | writeHeadConfig r w =>
    cases request
    exact ⟨_, _, _, _, .of_front .headConfig (readAll_encHeadConfig w) (fun _ => rfl) fun _ => rfl⟩
  | writeExclusions r ps =>
    cases request
    have few : ps.length < 256 := by simp [Instr.wellFormed, maxArgs] at formed; omega
    exact ⟨_, _, _, _, .of_front (.list .pair) (readAll_encPairs few) (fun _ => rfl) fun _ => rfl⟩
  | writePartConfig r w =>
    cases request
    exact ⟨_, _, _, _, .of_front .partConfig (readAll_encPartConfig w) (fun _ => rfl) fun _ => rfl⟩
  | writeFaultPolicy r es =>
    cases request
    exact ⟨_, readAllPairs, doWriteFaultPolicy, es, ⟨carryOut_writeFaultPolicy r, fun _ => rfl,
      (readAll_readAllPairs _).trans (readPairs_encPolicyArgs es),
      fun _ _ nine => writeFaultPolicy_refusesOtherSizes (nine rfl)⟩⟩

end Sys2Proof.Machine
end

section
/-! PROOFS. A management row and its request's frame (R174-R178, R180, R182, R190), and the requests answered without
effect (R190, R191). -/

namespace Sys2Proof.Machine

variable {s : State} {c : Instr} {r : ReqHead} {code : Byte} {args : List Byte}

/-! ### A row's arguments fit a frame (R178) -/

theorem length_optBytes {α : Type} {enc : α → List Byte} {n : Nat} (size : ∀ a, (enc a).length = n) (o : Option α) :
    (optBytes enc o).length = optSize n o := by
  cases o with
  | none => rfl
  | some a => rw [optBytes, List.length_cons, size, optSize, Nat.add_comm]

theorem length_encSegment (x : SegArg) : (encSegment x).length = x.size := by cases x <;> rfl

theorem length_encCriteria (c : CriteriaArg) : (encCriteria c).length = c.size := by
  have word := length_optBytes (enc := enc16) (n := 2) fun _ => rfl
  have long := length_optBytes (enc := enc32) (n := 4) fun _ => rfl
  have short := length_optBytes (enc := fun b : Byte => [b]) (n := 1) fun _ => rfl
  simp only [encCriteria, CriteriaArg.size, List.length_append, word, long, short, List.length_singleton]

theorem length_encWriteProfile (w : ProfileArg) : (encWriteProfile w).length = w.size := by
  have expected := length_optBytes (enc := enc16) (n := 2) (fun _ => rfl) w.expected
  have word : ∀ v : Word16, (enc16 v).length = 2 := fun _ => rfl
  have segments : (w.segments.flatMap encSegment).length = (w.segments.map SegArg.size).sum := by
    simp only [List.length_flatMap, length_encSegment]
  simp only [encWriteProfile, ProfileArg.size, List.length_cons, List.length_append, List.length_nil, expected, word,
    segments, length_encCriteria]
  omega

/-- The pairs of a list take two bytes each. -/
theorem length_flatMap_pair (ps : List (Byte × Byte)) :
    (ps.flatMap fun p => [p.1, p.2]).length = 2 * ps.length := by
  induction ps with
  | nil => rfl
  | cons p ps ih => simp only [List.flatMap_cons, List.length_append, ih, List.length_cons, List.length_nil]; omega

/-- A well-formed row's arguments leave room for tag, authority and command (R178). -/
theorem args_fit (request : c.request = some (r, code, args)) (formed : c.wellFormed = true) :
    args.length ≤ maxArgs := by
  cases c with
  | powerOnReset | softReset | frameArrival | portSendEnd | slotExpiry | segmentTimerExpiry | sampleTimerExpiry
  | resumeWindowExpiry | rescueLimitExpiry | wakeTimerExpiry | statusTimerExpiry | idleTimerExpiry
  | interlockFrameTimerExpiry | timebaseTick | rstNRelease => cases request
  | unknownCommand =>
    cases request
    simp only [Instr.wellFormed, Bool.and_eq_true, decide_eq_true_eq] at formed
    exact formed.2
  | clearFaults =>
    cases request
    simp only [Instr.wellFormed, Bool.and_eq_true, decide_eq_true_eq] at formed
    exact formed.2
  | writeProfile =>
    cases request
    simp only [Instr.wellFormed, ProfileArg.wellFormed, Bool.and_eq_true, decide_eq_true_eq] at formed
    rw [length_encWriteProfile]
    exact formed.2.2
  | writePhases =>
    cases request
    simp only [Instr.wellFormed, Bool.and_eq_true, decide_eq_true_eq] at formed
    simp only [encWritePhases, encList, List.length_cons, List.length_append, List.length_nil]
    omega
  | writeExclusions =>
    cases request
    simp only [Instr.wellFormed, Bool.and_eq_true, decide_eq_true_eq] at formed
    rw [encPairs, List.length_cons, length_flatMap_pair]
    exact formed.2
  | writeFaultPolicy =>
    cases request
    simp only [Instr.wellFormed, Bool.and_eq_true, decide_eq_true_eq] at formed
    rw [encPolicyArgs, length_flatMap_pair]
    exact formed.2
  | eraseProfile r p e =>
    cases request
    cases e <;> exact Nat.le_of_ble_eq_true rfl
  | lockProfile r p e | unlockProfile r p e =>
    cases request
    cases e <;> exact Nat.le_of_ble_eq_true rfl
  | _ => cases request; exact Nat.le_of_ble_eq_true rfl

/-! ### The arrival of a request's frame (R178, R180, R182) -/

theorem readRequest_payload (src authority code : Byte) (tag : Word16) (args : List Byte) :
    readRequest src (enc16 tag ++ [authority, code] ++ args) = some ⟨src, tag, authority, code, args⟩ := by
  simp only [enc16, le16, List.cons_append, List.nil_append, readRequest, ofLe16_le16]

/-- A request's frame to the part does what its row does when it is carried out by its command code, in every state of
the port and the queue (log 8). -/
theorem exec_requestFrame (fits : args.length ≤ maxArgs) (s : State) :
    exec (.frameArrival (mkFrame s.ownStation r.source 4 (enc16 r.tag ++ [r.authority, code] ++ args)) r.engEn) s =
      live (commandArrives r code args (carryOut (rowRequest r code args))) s := by
  let u : State := { s with engEn := r.engEn }
  let payload := enc16 r.tag ++ [r.authority, code] ++ args
  have size : payload.length = 4 + args.length := by
    simp only [payload, enc16, le16, List.length_append, List.length_cons, List.length_nil]
  have fitting : payload.length ≤ 248 := by rw [maxArgs] at fits; omega
  have right : ¬ wrongLength ⟨u.ownStation, r.source, 4, byte payload.length, payload⟩ = true := by
    rw [wrongLength_iff fitting, size]
    rintro (⟨is | is, -⟩ | ⟨is, -⟩ | ⟨-, short⟩)
    · cases is
    · cases is
    · cases is
    · omega
  have consumed : consume ⟨u.ownStation, r.source, 4, byte payload.length, payload⟩ u =
      requestArrives (rowRequest r code args) (carryOut (rowRequest r code args)) u := by
    have read := readRequest_payload r.source r.authority code r.tag args
    unfold consume
    dsimp only [payload]
    rw [read]
    rfl
  have arrives : arriveFrame (mkFrame u.ownStation r.source 4 payload) u =
      if u.transparent then u.modRp fun rp => rp.placeForward (mkFrame u.ownStation r.source 4 payload)
      else if r.source = u.ownStation then u.countPort .returned
      else requestArrives (rowRequest r code args) (carryOut (rowRequest r code args)) u :=
    (arriveFrame_built fitting).trans ((if_neg (Nat.not_lt.2 (ownStation_le u))).trans (if_congr Iff.rfl rfl
      ((if_neg fun bad => right bad.2).trans (if_congr Iff.rfl rfl ((if_pos rfl).trans consumed)))))
  exact congrArg (fun t => Host.Outcome.next (if s.rstHeld then s else
    if s.rp.skipFrame then u.modRp fun rp => { rp with skipFrame := false } else t)) arrives

/-- A well-formed row acts as its request carried out by its command code. -/
theorem exec_eq_carryOut (request : c.request = some (r, code, args)) (formed : c.wellFormed = true) (s : State) :
    exec c s = live (commandArrives r code args (carryOut (rowRequest r code args))) s := by
  obtain ⟨take, row, rfl | ⟨known, -⟩⟩ := exec_request request
  · exact row s
  · obtain ⟨α, read, body, a, reads⟩ := rowReads_of_request request formed known
    rw [reads.row, reads.taken, withArgs_of_read reads.whole]

/-- A request whose arguments break off or run on past a row's is answered BAD_ARGUMENT, where it has the authority its
command needs (R190). -/
theorem exec_wrongSize {wrong : List Byte} (request : c.request = some (r, code, args)) (formed : c.wellFormed = true)
    (known : commandCodes.contains code.toNat = true) (lock : code ≠ 34) (unlock : code ≠ 35)
    (nine : code = 41 → args.length = 18) (differs : wrong ≠ args) (part : wrong <+: args ∨ args <+: wrong)
    (fits : wrong.length ≤ maxArgs) (takes : s.Takes r) (authority : 32 ≤ code.toNat → IsEngineer r) :
    exec (.frameArrival (mkFrame s.ownStation r.source 4 (enc16 r.tag ++ [r.authority, code] ++ wrong)) r.engEn) s =
      .next (s.answered r code .badArgument []) := by
  obtain ⟨α, read, body, a, reads⟩ := rowReads_of_request request formed known
  have refuses := reads.sizes lock unlock nine wrong differs part { s with engEn := r.engEn }
  rw [exec_requestFrame fits, reads.taken]
  by_cases low : code.toNat < 32
  · rw [serve_of_operator low]
    exact operatorRow_refuses takes refuses
  · rw [serve_of_engineer (Nat.not_lt.1 low)]
    exact engineerRow_refuses ⟨takes, authority (Nat.not_lt.1 low)⟩ refuses

end Sys2Proof.Machine

namespace Sys2Proof.Proofs

open Sys2Proof.Machine

/-- Settles O12: the row and the frame both are the arrival of the request carried out by its command code. -/
theorem rowEqualsFrameArrival : Obligations.RowEqualsFrameArrival := by
  intro c s r code args request formed
  rw [exec_eq_carryOut request formed, exec_requestFrame (args_fit request formed)]

/-- Settles O14: DENIED before the arguments are read, UNKNOWN_COMMAND with none to read, and BAD_ARGUMENT where the
command's reader does not read the arguments whole. -/
theorem deniedAndUnknownCommands : Obligations.DeniedAndUnknownCommands :=
  ⟨fun _ _ _ _ _ request low high takes operator => exec_denied request low high takes operator,
    fun _ _ _ _ takes unknown => exec_unknown takes unknown,
    fun _ _ _ _ _ _ request formed known lock unlock nine differs part fits takes authority =>
      exec_wrongSize request formed known lock unlock nine differs part fits takes authority⟩

end Sys2Proof.Proofs
end

section
/-! PROOFS. What engineer commands alone write, which every event of a head, a generator, a sample and an interlock
frame leaves as it is (R11, R23, R46, R77, R86, R141, R195). -/

namespace Sys2Proof.Machine

/-! ### What engineer commands write -/

/-- What is written by engineer commands only: the profile records, the part configuration, the fault policy, the
exclusion list, the head configurations and the staged phase tables. -/
def State.engineered (s : State) : Vector ProfileRecord 32 × PartConfig × Vector PolicyEntry 9
    × List (HeadId × HeadId) × (HeadId → HeadConfig) × (GenId → PhaseTable × Bool) :=
  (s.profiles, s.mu.config, s.mu.policy, s.slots.exclusions, fun h => (s.head h).cfg,
    fun g => ((s.gen g).staged, (s.gen g).stagedDiffers))

theorem engineered_eq_iff {s t : State} : t.engineered = s.engineered ↔
    t.profiles = s.profiles ∧ t.mu.config = s.mu.config ∧ t.mu.policy = s.mu.policy
      ∧ t.slots.exclusions = s.slots.exclusions ∧ (∀ h, (t.head h).cfg = (s.head h).cfg)
      ∧ ∀ g, (t.gen g).staged = (s.gen g).staged ∧ (t.gen g).stagedDiffers = (s.gen g).stagedDiffers := by
  simp only [State.engineered, Prod.mk.injEq, funext_iff]

variable (s : State)

/-! ### Updates -/

/-- A head's change outside its configuration. -/
@[simp] theorem engineered_modHead (h : HeadId) {f : Head → Head} (keeps : ∀ x, (f x).cfg = x.cfg) :
    (s.modHead h f).engineered = s.engineered := by
  refine engineered_eq_iff.2 ⟨rfl, rfl, rfl, rfl, fun k => ?_, fun g => by rw [State.gen_modHead]; exact ⟨rfl, rfl⟩⟩
  by_cases own : k = h
  · subst own; rw [State.head_modHead_same, keeps]
  · rw [State.head_modHead_other _ _ own]

@[simp] theorem engineered_modAllHeads {f : HeadId → Head → Head} (keeps : ∀ h x, (f h x).cfg = x.cfg) :
    (s.modAllHeads f).engineered = s.engineered :=
  engineered_eq_iff.2 ⟨rfl, rfl, rfl, rfl, fun k => by rw [State.head_modAllHeads, keeps],
    fun g => by rw [State.gen_modAllHeads]; exact ⟨rfl, rfl⟩⟩

/-- A generator's change outside its staged table. -/
@[simp] theorem engineered_modGen (g : GenId) {f : Generator → Generator} (table : ∀ x, (f x).staged = x.staged)
    (differs : ∀ x, (f x).stagedDiffers = x.stagedDiffers) : (s.modGen g f).engineered = s.engineered := by
  refine engineered_eq_iff.2 ⟨by simp, by simp, by simp, by simp, fun h => by rw [State.head_modGen], fun k => ?_⟩
  by_cases own : k = g
  · subst own; rw [State.gen_modGen_same]; exact ⟨table _, differs _⟩
  · rw [State.gen_modGen_other _ _ own]; exact ⟨rfl, rfl⟩

@[simp] theorem engineered_modCtx (h : HeadId) (f : HeadContext → HeadContext) :
    (s.modCtx h f).engineered = s.engineered := engineered_modHead s h fun _ => rfl

@[simp] theorem engineered_withInterlocks (i : Interlocks) :
    ({ s with interlocks := i } : State).engineered = s.engineered := rfl

@[simp] theorem engineered_withResults (l : List ResultRecord) :
    ({ s with results := l } : State).engineered = s.engineered := rfl

@[simp] theorem engineered_modRp (f : RingPort → RingPort) : (s.modRp f).engineered = s.engineered := rfl

@[simp] theorem engineered_countPort (c : PortCounter) : (s.countPort c).engineered = s.engineered := rfl

@[simp] theorem engineered_countDev (h : HeadId) (d : Deviation) : (s.countDev h d).engineered = s.engineered :=
  engineered_modHead s h fun _ => rfl

@[simp] theorem engineered_notice (b : List Byte) : (s.notice b).engineered = s.engineered := by
  unfold State.notice; split <;> rfl

/-- What both branches leave as in `s`. -/
theorem engineered_ite {s t u : State} (c : Prop) [Decidable c] (yes : t.engineered = s.engineered)
    (no : u.engineered = s.engineered) : (if c then t else u).engineered = s.engineered := by
  split <;> assumption

/-- Events one after the other that each leave it. -/
theorem engineered_foldl {α : Type} {f : State → α → State} (each : ∀ s a, (f s a).engineered = s.engineered)
    (l : List α) : (l.foldl f s).engineered = s.engineered := by
  induction l generalizing s with
  | nil => rfl
  | cons a l ih => rw [List.foldl_cons, ih, each]

/-! ### Rescue, joints and faults (R35, R40, R103, R144) -/

@[simp] theorem engineered_endRescue (g : GenId) : (endRescue g s).engineered = s.engineered := by
  unfold endRescue
  split
  · rfl
  · exact engineered_modGen s g (fun _ => rfl) fun _ => rfl

@[simp] theorem engineered_dropRescue (h : HeadId) : (dropRescue h s).engineered = s.engineered := by
  have ends : ∀ (g : GenId) (t : State) (c : Prop) [Decidable c],
      (if c then endRescue g t else t).engineered = t.engineered :=
    fun g t c _ => engineered_ite c (engineered_endRescue t g) rfl
  unfold dropRescue endRescueOf
  exact (ends .b ..).trans ((ends .a ..).trans (engineered_modHead s h fun _ => rfl))

@[simp] theorem engineered_startIdleIfUnheld (g : GenId) : (startIdleIfUnheld g s).engineered = s.engineered :=
  engineered_ite _ (engineered_modGen s g (fun _ => rfl) fun _ => rfl) rfl

@[simp] theorem engineered_releaseGenerator (h : HeadId) : (releaseGenerator h s).engineered = s.engineered := by
  unfold releaseGenerator
  split
  · rfl
  · exact engineered_startIdleIfUnheld ..

@[simp] theorem engineered_suspend (c : SuspendCause) (h : HeadId) : (suspend c h s).engineered = s.engineered :=
  (engineered_dropRescue ..).trans (engineered_modHead s h fun _ => rfl)

@[simp] theorem engineered_finishJoint (o : JointOutcome) (f : Option (List Criterion)) (k : Option FaultKind)
    (h : HeadId) : (finishJoint o f k h s).engineered = s.engineered := by
  simp [finishJoint, State.noticeJointEnd]

@[simp] theorem engineered_finishNormally (h : HeadId) : (finishNormally h s).engineered = s.engineered :=
  engineered_ite _ (engineered_finishJoint ..) (engineered_finishJoint ..)

/-- The taking of a fault (R144). -/
@[simp] theorem engineered_takeFault (h : HeadId) (k : FaultKind) : (takeFault h k s).engineered = s.engineered := by
  have act : ∀ (t : State) (a : FaultAction), (applyAction h k a t).engineered = t.engineered := by
    intro t a
    rcases applyAction_cases t h k a with ⟨-, e⟩ | ⟨-, e⟩ | ⟨-, e⟩ <;> rw [e] <;> simp
  have records : (recordKind h k s).engineered = s.engineered := engineered_modHead s h fun _ => rfl
  have captures : ∀ (t : State) (a : FaultAction), (takeCapture h k a t).engineered = t.engineered :=
    fun t a => engineered_modHead t h fun _ => rfl
  unfold takeFault
  dsimp only
  split
  · rw [act]
    split <;> split <;> simp only [State.noticeHeadFault, engineered_notice, captures, records]
  · exact records

/-! ### Segments and the entry into a joint (R27, R29, R30, R135) -/

@[simp] theorem engineered_enterSegment (h : HeadId) : (enterSegment h s).engineered = s.engineered := by
  have test : ∀ t : State, (entryTest h t).engineered = t.engineered := fun t =>
    engineered_ite _ (engineered_takeFault ..) (engineered_ite _ rfl (engineered_takeFault ..))
  unfold enterSegment
  split
  · rfl
  next seg _ =>
    have entered : (s.modHead h fun x => x.enter seg s.timebase s.threeSlots).engineered = s.engineered :=
      engineered_modHead s h fun _ => rfl
    have left := engineered_ite (seg.isSoak = true) entered ((engineered_dropRescue _ h).trans entered)
    exact engineered_ite _ ((test _).trans left) left

@[simp] theorem engineered_exitSegment (h : HeadId) : (exitSegment h s).engineered = s.engineered := by
  have left : (leaveSegment h s).engineered = s.engineered :=
    (engineered_dropRescue ..).trans (engineered_modCtx ..)
  rcases exitSegment_cases h s with ⟨rc, -, -, e⟩ | ⟨-, e⟩ <;> rw [e]
  · rw [engineered_enterSegment, engineered_modCtx, left]
  · rw [engineered_finishNormally, left]

@[simp] theorem engineered_enterJoint (h : HeadId) : (enterJoint h s).engineered = s.engineered := by
  unfold enterJoint wakeGenerator
  dsimp only
  split
  · exact engineered_modCtx ..
  · split <;> simp [State.noticeGenState]

/-! ### Generators (chapter 6) -/

@[simp] theorem engineered_faultGenerator (g : GenId) (c : GenCause) :
    (faultGenerator g c s).engineered = s.engineered := by
  unfold faultGenerator
  rw [engineered_foldl]
  · simp [State.noticeGenState]
  · exact fun t h => engineered_ite _ (engineered_takeFault ..) rfl

@[simp] theorem engineered_readyGenerator (g : GenId) : (readyGenerator g s).engineered = s.engineered := by
  unfold readyGenerator
  simp only [State.noticeGenState, engineered_notice, engineered_startIdleIfUnheld]
  rw [engineered_foldl]
  · exact engineered_modGen s g (fun _ => rfl) fun _ => rfl
  · exact fun t h => engineered_ite _ (engineered_enterSegment ..) rfl

/-- A GENSTAT (R117). -/
theorem engineered_takeGenstat (p : List Byte) : (takeGenstat p s).engineered = s.engineered := by
  have acts : ∀ (t : State) g r, (applyReport g r t).engineered = t.engineered := by
    intro t g r
    rcases applyReport_cases t g r with ⟨-, -, -, e⟩ | ⟨-, -, e⟩ | ⟨-, -, e⟩ | e <;> rw [e] <;> simp
  have credits : ∀ (t : State) m, (creditEnergy m t).engineered = t.engineered := by
    intro t m
    rcases creditEnergy_cases t m with e | ⟨h, d, -, -, e⟩ | ⟨h, d, -, -, -, -, e⟩ <;> rw [e] <;> simp
  unfold takeGenstat
  split
  · rfl
  split
  · rfl
  · rw [acts, credits]
    exact engineered_modGen s _ (fun _ => rfl) fun _ => rfl

/-! ### Samples (chapter 3) -/

@[simp] theorem engineered_soakTests (p : Params) (t tf : Nat) (h : HeadId) :
    (soakTests p t tf h s).engineered = s.engineered := by
  have raised : (s.modHead h fun x => { x with rescueReq := true }).engineered = s.engineered :=
    engineered_modHead s h fun _ => rfl
  have raises : (raiseRequest h s).engineered = s.engineered :=
    engineered_ite _ ((engineered_countDev ..).trans raised) raised
  exact engineered_ite _ (engineered_ite _ rfl raises) (engineered_ite _ (engineered_dropRescue ..) rfl)

@[simp] theorem engineered_runSample (m : TakenSample) (p : Params) :
    (runSample m p s).engineered = s.engineered := by
  unfold runSample
  split
  · rfl
  extract_lets steered
  have same : steered.engineered = s.engineered :=
    engineered_ite _ (engineered_modHead s m.head fun _ => rfl) rfl
  rw [← same]
  split
  · rfl
  split
  · exact engineered_soakTests ..
  · exact engineered_ite _ (engineered_exitSegment ..) rfl

@[simp] theorem engineered_processSample (m : TakenSample) (p : Params) :
    (processSample m p s).engineered = s.engineered := by
  have measured : (s.modHead m.head fun x =>
      x.measured m p (s.inRamp m.head) s.timebase s.threeSlots).engineered = s.engineered :=
    engineered_modHead s m.head fun _ => rfl
  have coupled : ∀ t : State, (t.modHead m.head fun x => x.coupled m t.threeSlots).engineered = t.engineered :=
    fun t => engineered_modHead t m.head fun _ => rfl
  unfold processSample
  dsimp only
  split
  · rw [engineered_takeFault, measured]
  · have taken := (coupled _).trans measured
    exact engineered_ite _
      (engineered_ite _ ((engineered_takeFault ..).trans taken) ((engineered_runSample ..).trans taken)) taken

@[simp] theorem engineered_acceptSample (m : TakenSample) : (acceptSample m s).engineered = s.engineered := by
  have keeps : (keepSample m s).engineered = s.engineered := engineered_modHead s m.head fun _ => rfl
  unfold acceptSample
  extract_lets kept counted
  have same : counted.engineered = s.engineered :=
    engineered_ite _ ((engineered_countDev ..).trans keeps) keeps
  split
  · split
    · exact same
    · rw [engineered_processSample, same]
  · exact same

/-- A SAMPLE (R50, R51). -/
theorem engineered_takeSample (p : List Byte) : (takeSample p s).engineered = s.engineered := by
  unfold takeSample sequenceSample
  split
  · rfl
  · split <;> simp

/-! ### Interlocks (chapter 7) -/

@[simp] theorem engineered_releaseEarly (h : HeadId) : (releaseEarly h s).engineered = s.engineered := by
  rw [releaseEarly, engineered_countDev, engineered_modCtx]

@[simp] theorem engineered_coolantLoss (g : GroupId) : (coolantLoss g s).engineered = s.engineered := by
  unfold coolantLoss
  dsimp only
  rw [engineered_foldl]
  · exact engineered_ite _ (engineered_notice ..) rfl
  · intro t h
    unfold coolantLossHead
    split
    · exact engineered_ite _ (engineered_releaseEarly ..) (engineered_takeFault ..)
    all_goals simp

@[simp] theorem engineered_interlockLoss (released : Bool) (h : HeadId) :
    (interlockLoss released h s).engineered = s.engineered := by
  unfold interlockLoss
  split
  · exact engineered_ite _ (engineered_ite _ rfl (engineered_releaseEarly ..)) (engineered_takeFault ..)
  all_goals simp

/-- The losses of one event (R127, R129). -/
@[simp] theorem engineered_actOnLosses (s0 : State) (lost : GroupId → Bool) :
    (actOnLosses s0 lost s).engineered = s.engineered := by
  unfold actOnLosses
  dsimp only
  rw [engineered_foldl, engineered_foldl]
  · exact fun t g => engineered_ite _ (engineered_coolantLoss ..) rfl
  · exact fun t h => engineered_ite _ (engineered_interlockLoss ..) rfl

theorem engineered_showFrame (m : InterlockFrame) : (showFrame m s).engineered = s.engineered := by
  have shown : (s.modAllHeads fun h x => x.showInputs m h).engineered = s.engineered :=
    engineered_modAllHeads s fun _ _ => rfl
  rw [showFrame, engineered_withInterlocks, shown]

/-- An INTERLOCK frame (R127). -/
theorem engineered_takeInterlock (p : List Byte) : (takeInterlock p s).engineered = s.engineered := by
  unfold takeInterlock
  split
  · rfl
  · rw [takeInterlockFrame, engineered_actOnLosses, engineered_showFrame, engineered_withInterlocks]

/-! ### The soft reset (R201) -/

/-- The soft reset keeps what engineer commands wrote. -/
theorem engineered_softReset : (softReset s).engineered = s.engineered :=
  engineered_eq_iff.2 ⟨rfl, rfl, rfl, rfl, fun h => by rw [softReset_head]; rfl,
    fun g => by rw [softReset_gen]; exact ⟨rfl, rfl⟩⟩

end Sys2Proof.Machine
end

section
/-! PROOFS. While ENG_EN is low every request is refused engineer authority, so no frame, request or end of a send
touches what engineer commands write (R190, R191). -/

namespace Sys2Proof.Machine

/-! ### Operator commands -/

/-- Carrying out a command leaves what engineer commands write. -/
def BodyKeepsEngineered (body : State → Answer) : Prop := ∀ s, (body s).after.engineered = s.engineered

theorem withHead_keepsEngineered {f : HeadId → State → Answer} (b : Byte) (keeps : ∀ h, BodyKeepsEngineered (f h)) :
    BodyKeepsEngineered (withHead b f) := by
  intro s
  unfold withHead; split
  · exact keeps _ s
  · rfl

section
variable (s : State)

@[simp] theorem engineered_doReadResults (n : Byte) : (doReadResults n s).after.engineered = s.engineered := by
  unfold doReadResults; split <;> rfl

@[simp] theorem engineered_startJoint (h : HeadId) (p : ProfileId) (serial : Word32) :
    (startJoint h p serial s).engineered = s.engineered := by
  rw [startJoint, engineered_enterJoint, engineered_dropRescue]
  exact engineered_modHead s h fun _ => rfl

@[simp] theorem engineered_doStart (h p : Byte) (serial : Word32) :
    (doStart h p serial s).after.engineered = s.engineered := by
  unfold doStart
  split
  · rfl
  refine withHead_keepsEngineered h (fun h t => ?_) s
  split
  · rfl
  split
  · rfl
  split
  · rfl
  split
  · rfl
  · exact engineered_startJoint ..

@[simp] theorem engineered_doAbort (h : Byte) : (doAbort h s).after.engineered = s.engineered := by
  refine withHead_keepsEngineered h (fun h t => ?_) s
  split
  · exact engineered_finishJoint ..
  · rfl

@[simp] theorem engineered_doSuspendHead (h : Byte) : (doSuspendHead h s).after.engineered = s.engineered := by
  refine withHead_keepsEngineered h (fun h t => ?_) s
  split
  · exact engineered_suspend ..
  · rfl

@[simp] theorem engineered_doResumeHead (h k : Byte) (cont : Bool) :
    (doResumeHead h k cont s).after.engineered = s.engineered := by
  refine withHead_keepsEngineered h (fun h t => ?_) s
  split
  · rfl
  split
  · rfl
  split
  · rfl
  split
  · rfl
  split
  · rfl
  · exact (engineered_enterJoint ..).trans (engineered_modHead t h fun _ => rfl)

@[simp] theorem engineered_doClearHead (h : Byte) : (doClearHead h s).after.engineered = s.engineered := by
  refine withHead_keepsEngineered h (fun h t => ?_) s
  split
  · rfl
  split
  · rfl
  · exact engineered_modCtx ..

@[simp] theorem engineered_doClearFaults (h : Byte) (kinds : List Byte) :
    (doClearFaults h kinds s).after.engineered = s.engineered := by
  refine withHead_keepsEngineered h (fun h t => ?_) s
  split
  · rfl
  · exact engineered_modHead t h fun _ => rfl

@[simp] theorem engineered_doClearCoolantLatch (g : Byte) :
    (doClearCoolantLatch g s).after.engineered = s.engineered := by
  unfold doClearCoolantLatch
  split
  · rfl
  · split <;> rfl

@[simp] theorem engineered_doClearGenerator (g : Byte) :
    (doClearGenerator g s).after.engineered = s.engineered := by
  unfold doClearGenerator withGen
  split
  · dsimp only
    split
    · rfl
    split
    · rfl
    · exact (engineered_notice ..).trans (engineered_modGen s _ (fun _ => rfl) fun _ => rfl)
  · rfl

@[simp] theorem engineered_doAckColdStart : (doAckColdStart s).after.engineered = s.engineered := rfl

@[simp] theorem engineered_doClearCounters : (doClearCounters s).after.engineered = s.engineered := by
  have cleared : (s.modAllHeads fun _ x => { x with deviations := Vector.replicate 11 0 }).engineered = s.engineered :=
    engineered_modAllHeads s fun _ _ => rfl
  rw [doClearCounters, accept_after, zeroCounters, engineered_withInterlocks, engineered_modRp, cleared]

end

/-! ### Taking a request (R190-R192) -/

/-- With ENG_EN low an event leaves what engineer commands write. -/
def KeepsWhileLow (f : State → State) : Prop := ∀ s, s.engEn = false → (f s).engineered = s.engineered

theorem serveOperator_keepsWhileLow {q : Request} {body : State → Answer} (keeps : BodyKeepsEngineered body) :
    KeepsWhileLow (serveOperator q body) := fun s _ => keeps s

/-- With ENG_EN low an engineer command is DENIED, whatever it would write (R191). -/
theorem serveEngineer_keepsWhileLow (q : Request) (body : State → Answer) :
    KeepsWhileLow (serveEngineer q body) := by
  intro s low
  have denied : engineer q s = false := by rw [engineer, low, Bool.and_false]
  rw [serveEngineer, denied]
  rfl

theorem withArgs_keepsEngineered {α : Type} {read : Reader α} {args : List Byte} {f : α → State → Answer}
    (keeps : ∀ a, BodyKeepsEngineered (f a)) : BodyKeepsEngineered (withArgs read args f) := by
  intro s
  unfold withArgs; split
  · exact keeps _ s
  · rfl

/-- Whatever its command code, a request carried out with ENG_EN low leaves what engineer commands write. -/
theorem carryOut_keepsWhileLow (q : Request) : KeepsWhileLow (carryOut q) := by
  unfold carryOut
  split
  -- The codes 32 to 44 are the engineer commands.
  case h_20 | h_21 | h_22 | h_23 | h_24 | h_25 | h_26 | h_27 | h_28 | h_29 | h_30 | h_31 | h_32 =>
    exact serveEngineer_keepsWhileLow q _
  case h_33 => exact serveOperator_keepsWhileLow fun _ => rfl
  all_goals exact serveOperator_keepsWhileLow (withArgs_keepsEngineered fun _ _ => by simp)

theorem takeOldest_keepsWhileLow : KeepsWhileLow takeOldest := by
  intro s low
  rcases takeOldest_cases s with ⟨-, e⟩ | ⟨q, rest, -, e⟩ <;> rw [e]
  exact carryOut_keepsWhileLow q _ low

theorem requestArrives_keepsWhileLow (q : Request) {take : State → State} (keeps : KeepsWhileLow take) :
    KeepsWhileLow (requestArrives q take) := by
  intro s low
  rcases requestArrives_cases q take s with ⟨-, e⟩ | ⟨-, -, -, e⟩ | ⟨-, e⟩ <;> rw [e]
  · rfl
  · exact keeps s low
  · rfl

/-! ### Frames and sends (R180-R187) -/

/-- What arrives with ENG_EN low finds it low, whatever it was before. -/
theorem engineered_receive {f : State → State} (keeps : KeepsWhileLow f) (s : State) :
    (receive false f s).engineered = s.engineered :=
  engineered_ite (s := s) _ rfl (keeps { s with engEn := false } rfl)

theorem engineered_commandArrives {r : ReqHead} (low : r.engEn = false) (code : Byte) (args : List Byte)
    {take : State → State} (keeps : KeepsWhileLow take) (s : State) :
    (commandArrives r code args take s).engineered = s.engineered := by
  rw [commandArrives, low]
  refine engineered_receive (fun t low => ?_) s
  exact engineered_ite _ rfl (engineered_ite _ rfl (requestArrives_keepsWhileLow _ keeps t low))

theorem consume_keepsWhileLow (f : Received) : KeepsWhileLow (consume f) := by
  intro s low
  unfold consume
  refine engineered_ite _ (engineered_ite _ (engineered_takeSample ..) rfl)
    (engineered_ite _ (engineered_ite _ (engineered_takeGenstat ..) rfl)
      (engineered_ite _ (engineered_ite _ (engineered_takeInterlock ..) rfl) (engineered_ite _ ?_ rfl)))
  split
  · exact requestArrives_keepsWhileLow _ (carryOut_keepsWhileLow _) s low
  · rfl

theorem arriveFrame_keepsWhileLow (bytes : List Byte) : KeepsWhileLow (arriveFrame bytes) := by
  intro s low
  refine engineered_ite _ rfl ?_
  unfold routeFrame
  split
  · rfl
  · exact engineered_ite _ rfl (engineered_ite _ rfl (engineered_ite _ rfl (engineered_ite _ rfl
      (engineered_ite _ (consume_keepsWhileLow _ s low) rfl))))

/-- The end of a send is the soft reset, or the port's next frame and the taking of a request (R185, R192). -/
theorem sendEnd_keepsWhileLow : KeepsWhileLow sendEnd := by
  intro s low
  unfold sendEnd
  split
  · rfl
  · exact engineered_ite _ (engineered_softReset s)
      (engineered_ite _ (takeOldest_keepsWhileLow (s.modRp RingPort.beginNext) low) rfl)

/-! ### Every command -/

section
variable {s t : State} {r : ReqHead} {code : Byte} {args : List Byte} {body : State → Answer}

/-- While RST_N is held low nothing happens (R189). -/
theorem engineered_of_live {f : State → State} (keeps : ∀ s, (f s).engineered = s.engineered)
    (e : live f s = .next t) : t.engineered = s.engineered := by
  obtain rfl : (if s.rstHeld then s else f s) = t := by injection e
  exact engineered_ite _ rfl (keeps s)

theorem engineered_of_operatorRow (low : r.engEn = false) (keeps : BodyKeepsEngineered body)
    (e : operatorRow r code args body s = .next t) : t.engineered = s.engineered :=
  engineered_of_live (engineered_commandArrives low code args (serveOperator_keepsWhileLow keeps)) e

theorem engineered_of_engineerRow (low : r.engEn = false) (e : engineerRow r code args body s = .next t) :
    t.engineered = s.engineered :=
  engineered_of_live (engineered_commandArrives low code args (serveEngineer_keepsWhileLow _ body)) e

/-- With ENG_EN low no command at which a request may be taken touches what engineer commands write. -/
theorem exec_keepsEngineered (c : Instr) (e : exec c s = .next t) (low : c.engLevel = some false) :
    t.engineered = s.engineered := by
  cases c with
  | powerOnReset | softReset | slotExpiry | segmentTimerExpiry | sampleTimerExpiry | resumeWindowExpiry
  | rescueLimitExpiry | wakeTimerExpiry | statusTimerExpiry | idleTimerExpiry | interlockFrameTimerExpiry
  | timebaseTick | rstNRelease => cases low
  | frameArrival bytes engEn =>
    cases low
    exact engineered_of_live (engineered_receive (arriveFrame_keepsWhileLow bytes)) e
  | portSendEnd engEn =>
    cases low
    exact engineered_of_live (fun u => sendEnd_keepsWhileLow { u with engEn := false } rfl) e
  | unknownCommand r code args =>
    exact engineered_of_live
      (engineered_commandArrives (Option.some.inj low) code args (carryOut_keepsWhileLow _)) e
  | readStatus | readConfig | readCounters | readProfile | readPhases | readHead | readFaults
  | readResults | peekResults | start | abort | suspendHead | resumeHead | clearHead | clearFaults
  | clearCoolantLatch | clearGenerator | ackColdStart | clearCounters =>
    exact engineered_of_operatorRow (Option.some.inj low) (fun u => by simp) e
  | writeProfile | eraseProfile | lockProfile | unlockProfile | writePhases | loadPhases
  | writeHeadConfig | writeExclusions | writePartConfig | writeFaultPolicy | disableHead | enableHead
  | resetPart =>
    exact engineered_of_engineerRow (Option.some.inj low) e

end

end Sys2Proof.Machine

namespace Sys2Proof.Proofs

open Sys2Proof.Machine

/-- Settles O15: a request taken with ENG_EN low has no engineer authority, and no other work of a frame, a request or
the end of a send touches what engineer commands write. -/
theorem engineeringStateNeedsEngEn : Obligations.EngineeringStateNeedsEngEn :=
  fun c _ _ e low => engineered_eq_iff.1 (exec_keepsEngineered c e low)

end Sys2Proof.Proofs
end

section
/-! PROOFS. The part at reset meets every law of a legal state (R201), and a step runs the command at the front of the
queue (log 1). -/

namespace Sys2Proof.Machine

/-! ### The reset state -/

/-- The state at reset is that of a power-on reset with the straps at their reset level and RST_N high. -/
theorem powerOn_reset : powerOn resetStation false State.reset = State.reset := rfl

theorem reset_head (h : HeadId) : State.reset.head h = Head.powerOn := powerOn_head resetStation false State.reset h

theorem reset_profile (p : ProfileId) : State.reset.profile p = ⟨none, false, 0⟩ := by
  simp [State.profile, State.reset]

/-- No head holds a joint at reset, and no reservation stands. -/
theorem reset_jointsLegal : State.reset.JointsLegal := by
  have free : ∀ h, State.reset.holds h = false := fun h => by rw [State.holds, reset_head]; rfl
  refine ⟨fun p r e => ?_, fun h => ⟨?_, fun held => ?_, ?_, ?_⟩, ?_⟩
  · rw [reset_profile] at e; cases e
  · rw [free, reset_head]; rfl
  · rw [free] at held; cases held
  · rw [reset_head]; nofun
  · rw [reset_head]; nofun
  · have none : State.reset.reservations = 0 := by
      simp [State.reservations, reset_head, Head.powerOn, HeadContext.reset]
    rw [none]; exact Nat.zero_le _

end Sys2Proof.Machine

namespace Sys2Proof.Proofs

open Sys2Proof.Machine

/-- Settles O1: `step` looks at the front of the queue. -/
theorem stepRunsFrontCommand : Obligations.StepRunsFrontCommand :=
  ⟨fun c rest s waiting => by rw [step, waiting], fun s empty => by rw [step, empty]⟩

/-- Settles O52: the reset state is that of a power-on reset, which the laws that are kept by every step hold of. -/
theorem legalAtReset : Obligations.LegalAtReset := by
  obtain ⟨queues, counters⟩ := bounded_iff.1 (powerOn_bounded resetStation false State.reset)
  have timers := timersSafe_iff.1 (powerOn_timersSafe resetStation false State.reset _)
  obtain ⟨profiles, heats⟩ := heatKept_iff.1 (powerOn_heatKept resetStation false State.reset)
  obtain ⟨tables, config, gens⟩ := setUp_iff.1 (powerOn_setUp resetStation false State.reset)
  have rescue : State.reset.RescueLegal := rescueSafe_iff.1 (.at_rest (fun h => by rw [reset_head]; rfl)
    (fun g => by rw [reset_gen]; rfl) fun g => by rw [reset_gen]; rfl)
  have figures : State.reset.FiguresLegal := fun h => by
    rw [reset_head]; exact ⟨Nat.zero_le _, Nat.zero_le _, Nat.zero_le _⟩
  have faults : State.reset.FaultsLegal := fun h => by rw [reset_head]; exact FaultRecord.legal_empty
  have inputs : State.reset.InputsLegal :=
    ⟨fun h => by rw [reset_head]; exact ⟨Input.reset_legal, Input.reset_legal, Input.reset_legal⟩,
      fun g => by rw [reset_flow rfl]; exact Input.reset_legal⟩
  rw [powerOn_reset] at queues counters timers profiles heats tables config gens
  exact ⟨queues, counters, reset_jointsLegal, timers, rescue, profiles, heats, figures, faults, inputs, tables, config,
    gens⟩

end Sys2Proof.Proofs
end
